-- ==== Sys2Proof/Word.lean ====
section
/-! DEFINITION. The word types of the block: every value is an unsigned value of a stated width, or a two's-complement
integer of a stated width (00_scope.md R14). -/

namespace Sys2Proof

/-- A 32-bit command word of the command port (30_encoding.md R63). -/
abbrev Word := BitVec 32

/-- A phase accumulator: u16, wrapping mod 2^16 (10_state.md R18, R19). -/
abbrev Phase := BitVec 16

/-- A step-width register: u8 (10_state.md R20, R21). -/
abbrev StepWidth := BitVec 8

/-- A Sine Table entry, and an index into the Sine Table: u7 (20_memory.md R41). -/
abbrev Sample := BitVec 7

/-- The PWM duty register: u8 (10_state.md R23). -/
abbrev Duty := BitVec 8

/-- A count of ticks: u32 (10_state.md R24, R34). -/
abbrev TickCount := BitVec 32

/-- The PLAY code: s8, read as an integer by `BitVec.toInt` (10_state.md R33, 30_encoding.md R65). -/
abbrev Code := BitVec 8

/-- The PLAY duration in milliseconds: u16 (10_state.md R33). -/
abbrev Duration := BitVec 16

end Sys2Proof
end

