-- ==== Sys2Proof/Syntax.lean ====
section
/-! DEFINITION. The host's two commands (30_encoding.md R64), and the assembler's command lines, pseudo-instructions
included (R73, R74). -/

namespace Sys2Proof

/-- The commands of spec/opcode_table.json. The operands are the fields themselves, at their widths (R63, R65):
`code` is read as a signed integer by `toInt`, `dur` as a natural number by `toNat`. -/
inductive Instr where
  /-- INIT, format I (44_host_commands.md R131). -/
  | init
  /-- PLAY code, duration_ms, format P (44_host_commands.md R132). -/
  | play (code : Code) (dur : Duration)
deriving DecidableEq, Repr

/-- The `<code>` operand of the assembler: a decimal integer, or a digit literal (R73). -/
inductive CodeOperand where
  | int (v : Int)
  | literal (c : Char)
deriving DecidableEq, Repr

/-- One assembler command: the two commands of R73 and the pseudo-instructions of R74. -/
inductive Command where
  | init
  | play (code : CodeOperand) (ms : Nat)
  | digit (c : Char) (ms : Nat)
  | pause (ms : Nat)
  | nop
  | chirpUp (ms : Nat)
  | beepHigh (ms : Nat)
  | beepLow (ms : Nat)
  | chirpDown (ms : Nat)
deriving DecidableEq, Repr

end Sys2Proof
end

