-- ==== Sys2Proof/WellFormed.lean ====
section
/-! DEFINITION. Which terms are well formed. Every `Instr` is: its operand types hold exactly the values of its fields.
An assembler command is checked for its ranges (30_encoding.md R73). -/

namespace Sys2Proof

/-- "Within PLAY, every pair (CODE, DUR) has a meaning" (30_encoding.md R69): no term of `Instr` is ill formed. -/
def Instr.wf : Instr → Bool
  | .init => true
  | .play _ _ => true

/-- The value of a digit literal: '0'..'9' stand for 0..9, '*' for 10 and '#' for 11 (R73). -/
def digitValue (c : Char) : Option Nat :=
  if '0'.toNat ≤ c.toNat ∧ c.toNat ≤ '9'.toNat then some (c.toNat - '0'.toNat)
  else if c = '*' then some 10
  else if c = '#' then some 11
  else none

/-- `<duration_ms>` is a decimal integer in 0..65535 (R73). -/
def durationOk (ms : Nat) : Bool := decide (ms ≤ 65535)

/-- `<code>` is a decimal integer in -128..127, or one of the digit literals (R73). -/
def CodeOperand.wf : CodeOperand → Bool
  | .int v => decide (-128 ≤ v) && decide (v ≤ 127)
  | .literal c => (digitValue c).isSome

/-- An assembler command whose operands are in range; any other is an assembly error (R73). -/
def Command.wf : Command → Bool
  | .init => true
  | .play code ms => code.wf && durationOk ms
  | .digit c ms => (digitValue c).isSome && durationOk ms
  | .pause ms => durationOk ms
  | .nop => true
  | .chirpUp ms => durationOk ms
  | .beepHigh ms => durationOk ms
  | .beepLow ms => durationOk ms
  | .chirpDown ms => durationOk ms

end Sys2Proof
end

