-- ==== Sys2Proof/Decode.lean ====
section
/-! DEFINITION. The decoder, total on every 32-bit word (30_encoding.md R67); after it the encoder (R64), the opcode table
as rows of mask and pattern, and the reading of a table word. -/

namespace Sys2Proof

/-- What a command word is: a command, or ILLEGAL(w) (R67). -/
inductive Decoded where
  | ok (i : Instr)
  | illegal (w : Word)
deriving DecidableEq, Repr

/-- `OP = w[31:24]` (R63). -/
def opField (w : Word) : BitVec 8 := w.extractLsb' 24 8

/-- `CODE = w[23:16]` (R63). -/
def codeField (w : Word) : Code := w.extractLsb' 16 8

/-- `DUR = w[15:0]` (R63). -/
def durField (w : Word) : Duration := w.extractLsb' 0 16

/-- R67, in its order. -/
def decode (w : Word) : Decoded :=
  if w = 0x01000000#32 then .ok .init
  else if opField w = 0x02#8 then .ok (.play (codeField w) (durField w))
  else .illegal w

/-- The instruction of a decoded word, none for an ILLEGAL one. -/
def Decoded.instr? : Decoded → Option Instr
  | .ok i => some i
  | .illegal _ => none

/-- The word `{OP, CODE, DUR}`, that is `OP << 24 | CODE << 16 | DUR` (R63, R64, R74). -/
def packWord (op : BitVec 8) (code : Code) (dur : Duration) : Word :=
  op.setWidth 32 <<< 24 ||| code.setWidth 32 <<< 16 ||| dur.setWidth 32

/-- The command word of a command (R64). -/
def encode : Instr → Word
  | .init => packWord 0x01#8 0#8 0#16
  | .play code dur => packWord 0x02#8 code dur

/-- A row of spec/opcode_table.json: a word is the row's when its bits under `mask` are `pattern`. -/
structure OpcodeRow where
  mnemonic : String
  mask : Word
  pattern : Word
deriving DecidableEq, Repr

/-- Whether a word matches a row. -/
def OpcodeRow.covers (r : OpcodeRow) (w : Word) : Bool := w &&& r.mask == r.pattern

/-- The row of INIT (R64, opcode_table.json). -/
def initRow : OpcodeRow := ⟨"INIT", 0xFFFFFFFF#32, 0x01000000#32⟩

/-- The row of PLAY (R64, opcode_table.json). -/
def playRow : OpcodeRow := ⟨"PLAY", 0xFF000000#32, 0x02000000#32⟩

/-- The opcode table. -/
def opcodeTable : List OpcodeRow := [initRow, playRow]

/-- The table row of a command. -/
def Instr.row : Instr → OpcodeRow
  | .init => initRow
  | .play _ _ => playRow

/-- The word that the `nbits` low bits of `w` make, every bit above them 0. A command word is 32 bits long and there is
no other length (R64), so a longer one is no word. R64 does not say what becomes of fewer bits than 32: they are read as the
low bits of a word whose other bits are 0 (DESIGN CHOICE, log entry 5; unsafe for such a load alone). -/
def tableWord (nbits w : Nat) : Option Word :=
  if nbits ≤ 32 then some (BitVec.ofNat 32 (w % 2 ^ nbits)) else none

/-- The instruction that the decoder reads from the bits `w` of a table row of `nbits` bits. The block moves the word
whole, so no byte order arises (20_memory.md R50). -/
def decodeTableWord (nbits w : Nat) : Option Instr :=
  (tableWord nbits w).bind (fun v => (decode v).instr?)

end Sys2Proof
end

