-- ==== Sys2Proof/Config.lean ====
section
/-! DEFINITION. The configuration: the parameters the source leaves OPEN (00_scope.md R12), the checks that refuse a bad
configuration when the model is built (R13), and the free values (93_implementation_defined.md I9 to I13). -/

namespace Sys2Proof

/-- How many segments a PLAY has: "1, 2 or 3 segments" (10_state.md R34). -/
inductive SegCount where
  | one
  | two
  | three
deriving DecidableEq, Repr, Inhabited

/-- The high step widths of a PLAY's segments, `seg_hi[0..2]` (10_state.md R34). -/
structure SegHi where
  note0 : StepWidth
  note1 : StepWidth
  note2 : StepWidth
deriving DecidableEq, Repr, Inhabited

/-- A positive real, the type that R12 gives `TICK_RATE_HZ`. -/
abbrev PositiveReal := { r : ℝ // 0 < r }

/-- The OPEN parameters as R12's table lists them. What a field's type does not say, `wf` checks. -/
structure ConfigData where
  /-- `SINE_TABLE`: 128 entries of 0..127 (20_memory.md R45). -/
  sineTable : List Nat
  /-- `FREQ_MAP`: 12 pairs (hi, lo) of 0..127, entry 5 = (87, 50) (20_memory.md R47). -/
  freqMap : List (Nat × Nat)
  /-- `TICKS_PER_MS`. -/
  ticksPerMs : Nat
  /-- `CODE_BEEP_HIGH`. -/
  codeBeepHigh : Int
  /-- `CODE_BEEP_LOW`. -/
  codeBeepLow : Int
  /-- `CODE_CHIRP_DOWN`. -/
  codeChirpDown : Int
  /-- `STEP_BEEP_HIGH`. -/
  stepBeepHigh : Nat
  /-- `STEP_BEEP_LOW`. -/
  stepBeepLow : Nat
  /-- `STEPS_CHIRP_DOWN`: 2 or 3 values. -/
  stepsChirpDown : List Nat
  /-- `TICK_RATE_HZ`, informative: "positive real". -/
  tickRateHz : PositiveReal
  /-- `PWM_TOP`, informative. -/
  pwmTop : Nat

namespace ConfigData

/-- R45: 128 entries, each in 0..127. -/
def sineOk (d : ConfigData) : Bool :=
  d.sineTable.length == 128 && d.sineTable.all (fun v => decide (v ≤ 127))

/-- R47: 12 entries, each `hi` and `lo` in 0..127, and entry 5 = (87, 50). -/
def freqOk (d : ConfigData) : Bool :=
  d.freqMap.length == 12 && d.freqMap.all (fun e => decide (e.1 ≤ 127) && decide (e.2 ≤ 127)) &&
    d.freqMap[5]? == some (87, 50)

/-- R12: `1 <= TICKS_PER_MS` and `65535 x TICKS_PER_MS <= 2^32 - 2`. -/
def ticksOk (d : ConfigData) : Bool :=
  decide (1 ≤ d.ticksPerMs) && decide (65535 * d.ticksPerMs ≤ 2 ^ 32 - 2)

/-- R12: a reserved code is an int8, negative, and differs from -11 and from -1. -/
def codeOk (v : Int) : Bool :=
  decide (-128 ≤ v) && decide (v < 0) && decide (v ≠ -11) && decide (v ≠ -1)

/-- R12: the three OPEN reserved codes are legal and pairwise distinct. -/
def codesOk (d : ConfigData) : Bool :=
  codeOk d.codeBeepHigh && codeOk d.codeBeepLow && codeOk d.codeChirpDown &&
    decide (d.codeBeepHigh ≠ d.codeBeepLow) && decide (d.codeBeepHigh ≠ d.codeChirpDown) &&
    decide (d.codeBeepLow ≠ d.codeChirpDown)

/-- R12: the beeps' step widths are 0..255; the descending chirp has 2 or 3 step widths of 0..255. -/
def stepsOk (d : ConfigData) : Bool :=
  decide (d.stepBeepHigh ≤ 255) && decide (d.stepBeepLow ≤ 255) &&
    (d.stepsChirpDown.length == 2 || d.stepsChirpDown.length == 3) &&
    d.stepsChirpDown.all (fun v => decide (v ≤ 255))

/-- R12: `PWM_TOP` is positive (`TICK_RATE_HZ` is so by its type). -/
def informativeOk (d : ConfigData) : Bool := decide (0 < d.pwmTop)

/-- All of R12's constraints. -/
def wf (d : ConfigData) : Bool :=
  d.sineOk && d.freqOk && d.ticksOk && d.codesOk && d.stepsOk && d.informativeOk

/-- Shows that a legal configuration exists. No definition of the machine reads it. -/
def legalWitness : ConfigData where
  sineTable := List.replicate 128 0
  freqMap := List.replicate 12 (87, 50)
  ticksPerMs := 1
  codeBeepHigh := -2
  codeBeepLow := -3
  codeChirpDown := -4
  stepBeepHigh := 0
  stepBeepLow := 0
  stepsChirpDown := [0, 0]
  tickRateHz := ⟨1, one_pos⟩
  pwmTop := 1

theorem legalWitness_wf : legalWitness.wf = true := by decide +kernel

end ConfigData

/-- A configuration that meets R12; no other one can be built (R13). -/
structure Config where
  data : ConfigData := ConfigData.legalWitness
  ok : data.wf = true := by exact ConfigData.legalWitness_wf
deriving Inhabited

/-- Building a model from parameters: "A configuration that breaks any constraint of rule R12 is refused when the model
is built, before any step runs" (R13, I24). -/
def Config.build (d : ConfigData) : Option Config :=
  if h : d.wf = true then some ⟨d, h⟩ else none

/-- The configuration of the machine: any well-formed one, and nothing more is known of it (R12, log entry 3; safe). -/
opaque Config.machine : Config

/-- The registers whose value after reset the spec calls unspecified (10_state.md R39). -/
structure ResetDraw where
  duty : Duty
  tickCnt : TickCount
  cmdCode : Code
  cmdDur : Duration
  nSeg : SegCount
  segHi : SegHi
  segLo : StepWidth
  segTicks : TickCount
  audible : Bool
  segIdx : Fin 3
deriving DecidableEq, Repr, Inhabited

/-- The free draw of R39: "a free draw of the stated width, under no law; a model must not fix it"
(I9, I10, I11; DESIGN CHOICE, log entry 4). -/
opaque Config.resetDraw : ResetDraw

/-- The free value that picks the next agent when State's own schedule is used up: the n-th choice
(20_memory.md R58, I13; DESIGN CHOICE, log entry 1; safe). -/
opaque Config.freeChoice : Nat → Nat

end Sys2Proof
end

