-- ==== Sys2Proof/Machine/State.lean ====
section
/-! DEFINITION. The state of the machine as plain data, the reasons a step can stop, and the state after reset
(10_state.md, 70_reset_and_hazards.md R158). -/

namespace Sys2Proof.Machine

/-- The three agents whose atomic steps interleave (00_scope.md R9). -/
inductive Agent where
  | host
  | ctrl
  | tick
deriving DecidableEq, Repr

/-- `ctrl_pc`, the Tone Controller's sequencer state: 13 values (10_state.md R32). -/
inductive CtrlPc where
  | idle
  | mask
  | resolve
  | setHi
  | setLo
  | gateOn
  | waitStart
  | wait
  | nextHi
  | gateOff
  | zeroHi
  | zeroLo
  | unmask
deriving DecidableEq, Repr

/-- The sticky fault record `(code : u8, info : u32)` (10_state.md R30). -/
structure FaultRecord where
  code : BitVec 8
  info : Word
deriving DecidableEq, Repr

/-- An event of the history (44_host_commands.md R134). -/
inductive Event where
  /-- The host wrote command word `w` (ISSUE). -/
  | cmd (w : Word)
  /-- Command `w` returned to its caller. -/
  | done (w : Word)
  /-- `duty` was written with `d` while `gate_en = g` (TICK). -/
  | sample (d : Duty) (g : Bool)
  /-- The gate was written with `b`. -/
  | gate (b : Bool)
  /-- `dial_inhibit` was written with `b`. -/
  | inhibit (b : Bool)
  /-- A fault was recorded. -/
  | fault (code : BitVec 8) (info : Word)
deriving DecidableEq, Repr

/-- Why the machine stops. A fault that the host's protocol raises (R137) is no stop: it is a next state whose record
is set (R142). These two are the states from which no agent has a step. -/
inductive Fault where
  /-- Raised by `step`, and by `exec`, in a state whose fault record is set: "From then on no agent has a step ...
  Only reset clears `fault`" (60_exceptions.md R142, I25). Safe (log entry 6). -/
  | halted (code : BitVec 8) (info : Word)
  /-- Raised by `step` when no fault is recorded and neither HOST nor CTRL nor TICK is enabled, as right after reset
  with no command to issue (R158, R130, R76). Safe (log entry 7). -/
  | noEnabledStep
deriving DecidableEq, Repr

/-- Why an instruction is turned away by the model. -/
inductive Refusal where
  /-- Raised by an arm of `exec` whose instruction has no meaning yet; no arm is left so. Safe. -/
  | notModelled (mnemonic : String)
deriving DecidableEq, Repr

/-- The whole state. INVENTORY.md lists every field with its rule and its reset value. -/
structure State where
  /-- `acc_hi : u16` (R18). -/
  accHi : Phase
  /-- `acc_lo : u16` (R19). -/
  accLo : Phase
  /-- `step_hi : u8` (R20). -/
  stepHi : StepWidth
  /-- `step_lo : u8` (R21). -/
  stepLo : StepWidth
  /-- `duty : u8` (R23). -/
  duty : Duty
  /-- `tick_cnt : u32` (R24). -/
  tickCnt : TickCount
  /-- `timer_on : bit` (R26). -/
  timerOn : Bool
  /-- `pin_out : bit` (R27). -/
  pinOut : Bool
  /-- `gate_en : bit` (R28). -/
  gateEn : Bool
  /-- `dial_inhibit : bit`, an output (R29). -/
  dialInhibit : Bool
  /-- `fault`, the sticky record (R30). -/
  fault : Option FaultRecord
  /-- `ctrl_pc` (R32). -/
  ctrlPc : CtrlPc
  /-- `cmd_code : s8` (R33). -/
  cmdCode : Code
  /-- `cmd_dur : u16` (R33). -/
  cmdDur : Duration
  /-- `n_seg` (R34). -/
  nSeg : SegCount
  /-- `seg_hi[0..2] : u8` (R34). -/
  segHi : SegHi
  /-- `seg_lo : u8` (R34). -/
  segLo : StepWidth
  /-- `seg_ticks : u32` (R34). -/
  segTicks : TickCount
  /-- `audible : bit` (R34). -/
  audible : Bool
  /-- `seg_idx` (R34; which step writes it between segments: log entry 17). -/
  segIdx : Fin 3
  /-- The event history, oldest first (R134). -/
  history : List Event
  /-- HOST: the words of the host program not yet issued (R129). -/
  hostProg : List Word
  /-- HOST: the issued word whose DONE it waits for (R129). -/
  hostWait : Option Word
  /-- The MODEL's: which agents move next, in order (R58; log entry 1). -/
  schedule : List Agent
  /-- The MODEL's: how many free choices have been drawn (R58; log entry 1). -/
  draws : Nat
deriving DecidableEq, Repr

/-- The state after reset (10_state.md R39, 70_reset_and_hazards.md R158). Where R39 says "unspecified" the field is the
free draw (log entry 4); the host has no word to issue yet (log entry 5). -/
def State.reset : State where
  accHi := 0
  accLo := 0
  stepHi := 0
  stepLo := 0
  duty := Config.resetDraw.duty
  tickCnt := Config.resetDraw.tickCnt
  timerOn := false
  pinOut := false
  gateEn := false
  dialInhibit := false
  fault := none
  ctrlPc := .idle
  cmdCode := Config.resetDraw.cmdCode
  cmdDur := Config.resetDraw.cmdDur
  nSeg := Config.resetDraw.nSeg
  segHi := Config.resetDraw.segHi
  segLo := Config.resetDraw.segLo
  segTicks := Config.resetDraw.segTicks
  audible := Config.resetDraw.audible
  segIdx := Config.resetDraw.segIdx
  history := []
  hostProg := []
  hostWait := none
  schedule := []
  draws := 0

end Sys2Proof.Machine
end

