-- ==== Sys2Proof/Machine/Ops.lean ====
section
/-! DEFINITION. The shared operations: emitting an event, raising a fault, completing a command, accepting a command
word, moving the sequencer, placing and taking the host's next word. -/

namespace Sys2Proof.Machine

/-- Fault code 1, ILLEGAL_COMMAND (60_exceptions.md R137). -/
def illegalCommand : BitVec 8 := 1#8

/-- Fault code 2, NOT_INITIALIZED (R137). -/
def notInitialized : BitVec 8 := 2#8

/-- Fault code 3, BUSY (R137). -/
def busyFault : BitVec 8 := 3#8

/-- Fault code 4, DEADLINE_MISS, reserved: no rule raises it (R141). -/
def deadlineMiss : BitVec 8 := 4#8

/-- `emit E(args)`: append an event to the history (00_scope.md R15). -/
def State.emit (s : State) (e : Event) : State :=
  { s with history := s.history ++ [e] }

/-- `raise Fault(code, info)`: the sticky record and its event, and nothing else (60_exceptions.md R142). -/
def State.raise (s : State) (code : BitVec 8) (info : Word) : State :=
  { s with fault := some ⟨code, info⟩, history := s.history ++ [.fault code info] }

/-- `emit DONE(w)`: command `w` returns to its caller, and a HOST that waits for that DONE waits no longer
(44_host_commands.md R129, R134). -/
def State.complete (s : State) (w : Word) : State :=
  { s with
    history := s.history ++ [.done w]
    hostWait := if s.hostWait = some w then none else s.hostWait }

/-- `ctrl_pc <- pc` (R15). -/
def State.goto (s : State) (pc : CtrlPc) : State :=
  { s with ctrlPc := pc }

/-- Busy: `ctrl_pc != IDLE` (10_state.md R36). -/
def State.busy (s : State) : Bool :=
  decide (s.ctrlPc ≠ .idle)

/-- ISSUE(w), the common acceptance step (44_host_commands.md R130): CMD(w), then BUSY, then what the word does. No step
exists once a fault is recorded (60_exceptions.md R142). -/
def issue (w : Word) (perform : State → State) (s : State) : Host.Outcome State Fault Refusal :=
  match s.fault with
  | some f => .fault (.halted f.code f.info)
  | none =>
    if s.busy then .next ((s.emit (.cmd w)).raise busyFault w)
    else .next (perform (s.emit (.cmd w)))

/-- Issuing an ILLEGAL word (30_encoding.md R68, 60_exceptions.md R138). -/
def issueIllegal (w : Word) (s : State) : Host.Outcome State Fault Refusal :=
  issue w (fun t => t.raise illegalCommand w) s

/-- The latched command word, which UNMASK reads (42_tone_controller.md R119): the PLAY word of the latches `cmd_code`
and `cmd_dur` (DEDUCED, log entry 9; safe). -/
def State.latchedWord (s : State) : Word :=
  encode (.play s.cmdCode s.cmdDur)

/-- The HOST takes its next word: the word leaves the program, and the HOST waits for that word's DONE
(44_host_commands.md R129; log entry 8). -/
def State.takeWord (s : State) : Option (Word × State) :=
  match s.hostProg with
  | [] => none
  | w :: rest => some (w, { s with hostProg := rest, hostWait := some w })

/-- A word placed so that the very next step issues it: first in the host program, with HOST first to move, no DONE
outstanding and no fault recorded (log entry 5). Not a move of the machine. -/
def State.placeWord (s : State) (w : Word) : State :=
  { s with
    hostProg := w :: s.hostProg
    hostWait := none
    fault := none
    schedule := .host :: s.schedule }

end Sys2Proof.Machine
end

