-- ==== Sys2Proof/Machine/HostCommands.lean ====
section
/-! DEFINITION. The meanings of the host's two commands (44_host_commands.md). -/

namespace Sys2Proof.Machine

/-- INIT inside its ISSUE step: the timer and the pin, then DONE at once (R131, R130). -/
def performInit (s : State) : State :=
  ({ s with timerOn := true, pinOut := true }).complete (encode .init)

/-- PLAY inside its ISSUE step (R132): before INIT it faults; a duration of 0 is a no-op that is DONE at once (R104);
any other starts the sequencer. -/
def performPlay (code : Code) (dur : Duration) (s : State) : State :=
  let w := encode (.play code dur)
  if s.timerOn = false then s.raise notInitialized w
  else
    let t := { s with cmdCode := code, cmdDur := dur }
    if dur = 0#16 then t.complete w else t.goto .mask

/-- INIT (R131). -/
def execInit (s : State) : Host.Outcome State Fault Refusal :=
  issue (encode .init) performInit s

/-- PLAY (R132). -/
def execPlay (code : Code) (dur : Duration) (s : State) : Host.Outcome State Fault Refusal :=
  issue (encode (.play code dur)) (performPlay code dur) s

end Sys2Proof.Machine
end

