-- ==== Sys2Proof/Machine/Flags.lean ====
section
/-! DEFINITION. The block has no condition codes or flags (10_state.md R36). What it has is status that follows from the
state: the hold of WAIT and the idle mode, and which agents have an enabled step. (Busy is in Ops.) -/

namespace Sys2Proof.Machine

/-- The hold of WAIT: "hold until tick_cnt > seg_ticks", strict and unsigned (41_duration_waiter.md R96). -/
def State.held (s : State) : Bool :=
  decide (s.ctrlPc = .wait) && decide (s.tickCnt ≤ s.segTicks)

/-- The low-power idle mode: the hold, and nothing else (R99, 60_exceptions.md R157). -/
def State.lowPowerIdle (s : State) : Bool := s.held

/-- CTRL has a step in every state but IDLE, except while WAIT is held (42_tone_controller.md R122). -/
def State.ctrlReady (s : State) : Bool := s.busy && !s.held

/-- HOST has a step when it waits for no DONE and has a next word (44_host_commands.md R130). -/
def State.hostReady (s : State) : Bool := s.hostWait.isNone && !s.hostProg.isEmpty

/-- Whether an agent has an enabled step. A recorded fault disables all three (60_exceptions.md R142); TICK is enabled
exactly when `timer_on = 1` and `fault = none` (40_tick_engine.md R76). -/
def State.enabled (s : State) : Agent → Bool
  | .host => s.fault.isNone && s.hostReady
  | .ctrl => s.fault.isNone && s.ctrlReady
  | .tick => s.fault.isNone && s.timerOn

end Sys2Proof.Machine
end

