-- ==== Sys2Proof/Machine/Scheduler.lean ====
section
/-! DEFINITION. Which agent moves next. The spec admits every interleaving of enabled steps (20_memory.md R58, R147): the
next agent is the first enabled one of State's schedule, and a free value once the schedule is used up. -/

namespace Sys2Proof.Machine

/-- The agents with an enabled step (00_scope.md R9). -/
def enabledAgents (s : State) : List Agent :=
  [Agent.host, Agent.ctrl, Agent.tick].filter s.enabled

/-- The first enabled agent of a schedule, with the rest of the schedule after it; an entry that names an agent without
an enabled step is passed over (DESIGN CHOICE, log entry 2; safe). -/
def firstEnabled (s : State) : List Agent → Option (Agent × List Agent)
  | [] => none
  | a :: rest => if s.enabled a then some (a, rest) else firstEnabled s rest

/-- The next agent, and the state with that choice taken from the schedule. With no schedule left, a single enabled agent
moves; among several the free value chooses (DESIGN CHOICE, log entry 1; safe). None: nobody is enabled. -/
def chooseAgent (s : State) : Option (Agent × State) :=
  match firstEnabled s s.schedule with
  | some (a, rest) => some (a, { s with schedule := rest })
  | none =>
    match enabledAgents s with
    | [] => none
    | [a] => some (a, { s with schedule := [] })
    | a :: b :: more =>
      some ((a :: b :: more).getD (Config.freeChoice s.draws % (more.length + 2)) a,
        { s with schedule := [], draws := s.draws + 1 })

end Sys2Proof.Machine
end

