-- ==== Sys2Proof/Machine/Operands.lean ====
section
/-! DEFINITION. The operands of the steps: the ROMs and the reserved-code table, the index function and the blend of the
tick engine, the class and the notes of a PLAY code, the segment length. -/

namespace Sys2Proof.Machine

/-! ### ROMs and the reserved-code table (20_memory.md) -/

/-- `SINE(i) = SINE_TABLE[i]` (R46). -/
def sine (c : Config) (i : Sample) : Sample :=
  BitVec.ofNat 7 (c.data.sineTable.getD i.toNat 0)

/-- `FMAP(c) = FREQ_MAP[c] = (hi, lo)` (R48). -/
def fmap (c : Config) (k : Fin 12) : BitVec 7 × BitVec 7 :=
  let e := c.data.freqMap.getD k.val (0, 0)
  (BitVec.ofNat 7 e.1, BitVec.ofNat 7 e.2)

/-- `CODE_BEEP_HIGH` (R43). -/
def codeBeepHigh (c : Config) : Code := BitVec.ofInt 8 c.data.codeBeepHigh

/-- `CODE_BEEP_LOW` (R43). -/
def codeBeepLow (c : Config) : Code := BitVec.ofInt 8 c.data.codeBeepLow

/-- `CODE_CHIRP_UP = -11` (00_scope.md R10). -/
def codeChirpUp : Code := BitVec.ofInt 8 (-11)

/-- `CODE_CHIRP_DOWN` (R43). -/
def codeChirpDown (c : Config) : Code := BitVec.ofInt 8 c.data.codeChirpDown

/-- The notes of a PLAY: the high step width of each of its 1, 2 or 3 segments (R43, 10_state.md R34). -/
inductive Notes where
  | one (a : StepWidth)
  | two (a b : StepWidth)
  | three (a b d : StepWidth)
deriving DecidableEq, Repr

/-- `STEP_BEEP_HIGH` (R43). -/
def stepBeepHigh (c : Config) : StepWidth := BitVec.ofNat 8 c.data.stepBeepHigh

/-- `STEP_BEEP_LOW` (R43). -/
def stepBeepLow (c : Config) : StepWidth := BitVec.ofNat 8 c.data.stepBeepLow

/-- `STEPS_CHIRP_UP = [34, 43, 51]` (00_scope.md R10). -/
def stepsChirpUp : Notes := .three 34#8 43#8 51#8

/-- `STEPS_CHIRP_DOWN`: 2 or 3 values (R43). A well-formed configuration has no list of another length (R12). -/
def stepsChirpDown (c : Config) : Notes :=
  match c.data.stepsChirpDown with
  | [a, b] => .two (BitVec.ofNat 8 a) (BitVec.ofNat 8 b)
  | [a, b, d] => .three (BitVec.ofNat 8 a) (BitVec.ofNat 8 b) (BitVec.ofNat 8 d)
  | _ => .one 0#8

/-! ### Segments (10_state.md R34) -/

/-- `n_seg` as a number. -/
def segCountNat : SegCount → Nat
  | .one => 1
  | .two => 2
  | .three => 3

/-- `seg_hi[k]`. -/
def segHiAt (h : SegHi) (k : Fin 3) : StepWidth :=
  match k with
  | 0 => h.note0
  | 1 => h.note1
  | 2 => h.note2

/-- `length(notes)` (42_tone_controller.md R106). -/
def noteCount : Notes → SegCount
  | .one _ => .one
  | .two _ _ => .two
  | .three _ _ _ => .three

/-- `seg_hi[k] <- notes[k]   for k < n_seg`; the entries from `n_seg` on are not written (R106). -/
def writeNotes (h : SegHi) : Notes → SegHi
  | .one a => { h with note0 := a }
  | .two a b => { h with note0 := a, note1 := b }
  | .three a b d => { note0 := a, note1 := b, note2 := d }

/-! ### The class of a PLAY code (30_encoding.md R70) -/

/-- The classes of R70; a DIGIT carries its Frequency Map index. -/
inductive CodeClass where
  | digit (k : Fin 12)
  | beepHigh
  | beepLow
  | chirpUp
  | chirpDown
  | silence
deriving DecidableEq, Repr

/-- `class(code)`: 0..11 are digits, the four reserved negative codes their own classes, "every other value, including
-1 and 12..127" SILENCE (R70). -/
def codeClass (c : Config) (code : Code) : CodeClass :=
  if h : 0 ≤ code.toInt ∧ code.toInt ≤ 11 then .digit ⟨code.toInt.toNat, by omega⟩
  else if code = codeBeepHigh c then .beepHigh
  else if code = codeBeepLow c then .beepLow
  else if code = codeChirpUp then .chirpUp
  else if code = codeChirpDown c then .chirpDown
  else .silence

/-- What RESOLVE makes of a code: the notes, the low step width and whether the gate opens. -/
structure Tone where
  notes : Notes
  lo : StepWidth
  audible : Bool
deriving DecidableEq, Repr

/-- The case table of RESOLVE (42_tone_controller.md R106 to R109). -/
def toneOf (c : Config) : CodeClass → Tone
  | .digit k => ⟨.one ((fmap c k).1.setWidth 8), (fmap c k).2.setWidth 8, true⟩
  | .beepHigh => ⟨.one (stepBeepHigh c), 0#8, true⟩
  | .beepLow => ⟨.one (stepBeepLow c), 0#8, true⟩
  | .chirpUp => ⟨stepsChirpUp, 0#8, true⟩
  | .chirpDown => ⟨stepsChirpDown c, 0#8, true⟩
  | .silence => ⟨.one 0#8, 0#8, false⟩

/-! ### Durations (41_duration_waiter.md R93, 42_tone_controller.md R110) -/

/-- `ticks(D) = D x TICKS_PER_MS`, exactly (R93). -/
def ticksOf (c : Config) (d : Duration) : Nat := d.toNat * c.data.ticksPerMs

/-- `ticks(D) div n_seg`, exactly (R110). -/
def segmentTicks (c : Config) (d : Duration) (n : SegCount) : Nat := ticksOf c d / segCountNat n

/-! ### The tick engine's arithmetic (40_tick_engine.md) -/

/-- `acc +_16 zext_16(step)` (R78). -/
def advance (acc : Phase) (step : StepWidth) : Phase := acc + step.setWidth 16

/-- `idx(a) = ((a + 4) >> 3) & 0x7F`, `a + 4` computed without truncation (R79). -/
def tableIndex (a : Phase) : Sample := BitVec.ofNat 7 (((a.toNat + 4) >>> 3) &&& 0x7F)

/-- `s_hi + (s_lo - (s_lo >> 2))`, exactly (R78 step 4, R84). -/
def blend (hi lo : Sample) : Nat := hi.toNat + (lo.toNat - (lo.toNat >>> 2))

/-- `P(s) = 1024 / gcd(s, 1024)`: how many ticks return a channel's phase to its start (R89). -/
def phasePeriod (step : StepWidth) : Nat := 1024 / Nat.gcd step.toNat 1024

end Sys2Proof.Machine
end

