-- ==== Sys2Proof/Machine/TickEngine.lean ====
section
/-! DEFINITION. The tick engine: one atomic TICK step per timer overflow (40_tick_engine.md). -/

namespace Sys2Proof.Machine

/-- The high lane after step 1 of R78: always advanced (R82). -/
def State.nextAccHi (s : State) : Phase := advance s.accHi s.stepHi

/-- The low lane after step 3 of R78: advanced only when `step_lo != 0` (R81). -/
def State.nextAccLo (s : State) : Phase :=
  if s.stepLo ≠ 0#8 then advance s.accLo s.stepLo else s.accLo

/-- `s_hi` of R78: the sample at the advanced high phase. -/
def State.sampleHi (c : Config) (s : State) : Sample := sine c (tableIndex s.nextAccHi)

/-- `s_lo` of R78: the sample at the advanced low phase, or 0 when the low channel is silent (R81). -/
def State.sampleLo (c : Config) (s : State) : Sample :=
  if s.stepLo ≠ 0#8 then sine c (tableIndex s.nextAccLo) else 0#7

/-- The value that a TICK writes to `duty`: `d` fits in u8 (R84). -/
def State.tickDuty (c : Config) (s : State) : Duty :=
  BitVec.ofNat 8 (blend (s.sampleHi c) (s.sampleLo c))

/-- TICK, the sample-synthesis step (R78); enabled when `timer_on = 1` and `fault = none` (R76). -/
def tick (c : Config) (s : State) : State :=
  ({ s with
      accHi := s.nextAccHi
      accLo := s.nextAccLo
      duty := s.tickDuty c
      tickCnt := s.tickCnt + 1#32 }).emit (.sample (s.tickDuty c) s.gateEn)

/-- `n` TICK steps one after another. -/
def ticks (c : Config) : Nat → State → State
  | 0, s => s
  | n + 1, s => ticks c n (tick c s)

end Sys2Proof.Machine
end

