-- ==== Sys2Proof/Machine/DurationWaiter.lean ====
section
/-! DEFINITION. The Duration Waiter: the CTRL steps WAIT_START and WAIT (41_duration_waiter.md). -/

namespace Sys2Proof.Machine

/-- WAIT_START, the start of an epoch (R95). -/
def waitStart (s : State) : State :=
  ({ s with tickCnt := 0#32 }).goto .wait

/-- WAIT, once its hold is lifted: the next segment, or the end of the tone (R96). It is WAIT that increments `seg_idx`, as
R96 and 42_tone_controller.md R114 say, where 10_state.md R34 says that NEXT_HI writes it (DEDUCED, log entry 17;
safe). -/
def wait (s : State) : State :=
  if s.segIdx.val + 1 < segCountNat s.nSeg then ({ s with segIdx := s.segIdx + 1 }).goto .nextHi
  else s.goto .gateOff

end Sys2Proof.Machine
end

