-- ==== Sys2Proof/Machine/PwmGate.lean ====
section
/-! DEFINITION. The PWM Gate's two sub-operations and the output pin (43_pwm_gate.md, 10_state.md R31). -/

namespace Sys2Proof.Machine

/-- GATE_ENABLE; `duty` is not written (R124). -/
def gateEnable (s : State) : State :=
  ({ s with gateEn := true }).emit (.gate true)

/-- GATE_DISABLE: the gate closes and `duty` becomes 0 (R125). -/
def gateDisable (s : State) : State :=
  ({ s with gateEn := false, duty := 0#8 }).emit (.gate false)

/-- The level of the output pin (R31). UNDRIVEN has no level: none is specified before INIT (I12). -/
inductive PinLevel where
  | undriven
  | low
  | pwm (d : Duty)
deriving DecidableEq, Repr

/-- `pin`, a function of state and not a register (R31). -/
def State.pin (s : State) : PinLevel :=
  if s.pinOut = false then .undriven
  else if s.gateEn = false then .low
  else .pwm s.duty

end Sys2Proof.Machine
end

