-- ==== Sys2Proof/Machine/ToneController.lean ====
section
/-! DEFINITION. The Tone Controller: one CTRL step for each state of the sequencer (42_tone_controller.md). -/

namespace Sys2Proof.Machine

/-- MASK, which disables the dial interrupts (R105). -/
def mask (s : State) : State :=
  (({ s with dialInhibit := true }).emit (.inhibit true)).goto .resolve

/-- The segment registers that RESOLVE writes for a tone and a duration (R106, R110). -/
def State.latchTone (s : State) (t : Tone) (target : Nat) : State :=
  { s with
    nSeg := noteCount t.notes
    segHi := writeNotes s.segHi t.notes
    segLo := t.lo
    segTicks := BitVec.ofNat 32 target
    audible := t.audible
    segIdx := 0 }

/-- RESOLVE, which turns the code and duration into notes (R106 to R110). -/
def resolve (c : Config) (s : State) : State :=
  let tone := toneOf c (codeClass c s.cmdCode)
  (s.latchTone tone (segmentTicks c s.cmdDur (noteCount tone.notes))).goto .setHi

/-- SET_HI, which writes the first high step width (R111). -/
def setHi (s : State) : State :=
  ({ s with stepHi := segHiAt s.segHi 0 }).goto .setLo

/-- SET_LO, which writes the low step width (R112). -/
def setLo (s : State) : State :=
  ({ s with stepLo := s.segLo }).goto .gateOn

/-- GATE_ON, which enables the PWM Gate for an audible code (R113). -/
def gateOn (s : State) : State :=
  (if s.audible then gateEnable s else s).goto .waitStart

/-- NEXT_HI, which changes the high step width between segments (R115). It reads `seg_idx` as WAIT left it and writes none
(DEDUCED, log entry 17; safe). -/
def nextHi (s : State) : State :=
  ({ s with stepHi := segHiAt s.segHi s.segIdx }).goto .waitStart

/-- GATE_OFF, which disables the PWM Gate, also for silence (R116). -/
def gateOff (s : State) : State :=
  (gateDisable s).goto .zeroHi

/-- ZERO_HI, which zeroes the high step width (R117). -/
def zeroHi (s : State) : State :=
  ({ s with stepHi := 0#8 }).goto .zeroLo

/-- ZERO_LO, which zeroes the low step width (R118). -/
def zeroLo (s : State) : State :=
  ({ s with stepLo := 0#8 }).goto .unmask

/-- UNMASK, which re-enables the dial interrupts and completes the PLAY (R119). -/
def unmask (s : State) : State :=
  ((({ s with dialInhibit := false }).emit (.inhibit false)).complete s.latchedWord).goto .idle

/-- The CTRL step of the current sequencer state (R103). At IDLE there is none, and none is ever taken
(10_state.md R32; log entry 11). -/
def ctrlStep (c : Config) (s : State) : State :=
  match s.ctrlPc with
  | .idle => s
  | .mask => mask s
  | .resolve => resolve c s
  | .setHi => setHi s
  | .setLo => setLo s
  | .gateOn => gateOn s
  | .waitStart => waitStart s
  | .wait => wait s
  | .nextHi => nextHi s
  | .gateOff => gateOff s
  | .zeroHi => zeroHi s
  | .zeroLo => zeroLo s
  | .unmask => unmask s

end Sys2Proof.Machine
end

