-- ==== Sys2Proof/Machine/Step.lean ====
section
/-! DEFINITION. One atomic step of the machine: the step of the agent whose turn it is (00_scope.md R9, 20_memory.md R57). -/

namespace Sys2Proof.Machine

/-- The HOST step: ISSUE of the next word of the host program (44_host_commands.md R129, R130). -/
def hostStep (s : State) : Host.Outcome State Fault Refusal :=
  match s.takeWord with
  | none => .fault .noEnabledStep
  | some (w, t) =>
    match decode w with
    | .ok i => exec i t
    | .illegal v => issueIllegal v t

/-- The step of one agent. -/
def agentStep (c : Config) (a : Agent) (s : State) : Host.Outcome State Fault Refusal :=
  match a with
  | .host => hostStep s
  | .ctrl => .next (ctrlStep c s)
  | .tick => .next (tick c s)

/-- One step of the machine with configuration `c`. -/
def stepWith (c : Config) (s : State) : Host.Outcome State Fault Refusal :=
  match s.fault with
  | some f => .fault (.halted f.code f.info)
  | none =>
    match chooseAgent s with
    | none => .fault .noEnabledStep
    | some (a, t) => agentStep c a t

/-- One step of the machine, with the machine's own configuration (R12). -/
def step (s : State) : Host.Outcome State Fault Refusal :=
  stepWith Config.machine s

/-- `s` with the instruction whose bits are `w` placed where the HOST takes its next word, so that the very next step
issues it (log entry 5). A longer word than 32 bits does not exist (30_encoding.md R64): it leaves `s` as it is. -/
def State.withFetchWord (s : State) (nbits w : Nat) : State :=
  match tableWord nbits w with
  | some v => s.placeWord v
  | none => s

end Sys2Proof.Machine
end

