-- ==== Sys2Proof/Machine/Acoustics.lean ====
section
/-! DEFINITION. The informative quantities: what the spec derives from TICK_RATE_HZ and PWM_TOP. "No rule reads" them
(00_scope.md R12), and no step of the machine does. -/

namespace Sys2Proof.Machine

/-- `f` is the tone frequency of step width `s`: `s x TICK_RATE_HZ / 1024` (40_tick_engine.md R90). -/
def IsToneHz (c : Config) (s : StepWidth) (f : ℝ) : Prop := f = s.toNat * c.data.tickRateHz.val / 1024

/-- `p` is the overflow timer's period in seconds: `1 / TICK_RATE_HZ` (60_exceptions.md R152). -/
def IsTickPeriod (c : Config) (p : ℝ) : Prop := p = 1 / c.data.tickRateHz.val

/-- `step = round(8 * N_samples * f / tick_rate)`, the formula a step width was computed from (20_memory.md R49). A half
is rounded up (DESIGN CHOICE, log entry 15; safe). -/
def IsStepFor (step : Int) (f tickRate : ℝ) : Prop := step = ⌊8 * 128 * f / tickRate + 1 / 2⌋

/-- The fraction of a PWM period for which the pin is high, `duty / PWM_TOP` (43_pwm_gate.md R128); none while the pin is
not driven, 0 while it is LOW (10_state.md R31). -/
def highFraction (c : Config) : PinLevel → Option Rat
  | .undriven => none
  | .low => some 0
  | .pwm d => some ((d.toNat : Rat) / (c.data.pwmTop : Rat))

end Sys2Proof.Machine
end

