-- ==== Sys2Proof/Machine/Assembler.lean ====
section
/-! DEFINITION. The assembler of a host command program (30_encoding.md R73) and its pseudo-instructions (R74). It runs
outside the block: it turns text into the words of a host program. -/

namespace Sys2Proof.Machine

/-- The code that a `<code>` operand stands for (R73). -/
def codeOf : CodeOperand → Code
  | .int v => BitVec.ofInt 8 v
  | .literal ch => BitVec.ofNat 8 ((digitValue ch).getD 0)

/-- The PLAY that a pseudo-instruction expands to (R74). Only a well-formed command is ever expanded. -/
def expandCommand (c : Config) : Command → Instr
  | .init => .init
  | .play code ms => .play (codeOf code) (BitVec.ofNat 16 ms)
  | .digit ch ms => .play (codeOf (.literal ch)) (BitVec.ofNat 16 ms)
  | .pause ms => .play (codeOf (.int (-1))) (BitVec.ofNat 16 ms)
  | .nop => .play (codeOf (.int (-1))) 0#16
  | .chirpUp ms => .play codeChirpUp (BitVec.ofNat 16 ms)
  | .beepHigh ms => .play (codeBeepHigh c) (BitVec.ofNat 16 ms)
  | .beepLow ms => .play (codeBeepLow c) (BitVec.ofNat 16 ms)
  | .chirpDown ms => .play (codeChirpDown c) (BitVec.ofNat 16 ms)

/-- The word of a command: "a value out of range is an assembly error, and no word is emitted for it" (R73). -/
def assembleCommand (c : Config) (cmd : Command) : Option Word :=
  if cmd.wf then some (encode (expandCommand c cmd)) else none

/-! ### Text (R73): one command per line, `;` begins a comment. Blanks and tabs may stand around a command and its
operands, and mnemonics are in capitals (DESIGN CHOICE, log entry 14; safe). -/

/-- A line of a program: nothing but blanks and comment, a command, or an error of syntax. -/
inductive Line where
  | empty
  | command (cmd : Command)
  | malformed
deriving DecidableEq, Repr

/-- A blank or a tab. -/
def isBlank (ch : Char) : Bool := ch == ' ' || ch == '\t'

/-- Characters without the blanks before and after them. -/
def trimBlanks (cs : List Char) : List Char :=
  ((cs.dropWhile isBlank).reverse.dropWhile isBlank).reverse

/-- The operands between commas. -/
def splitCommas : List Char → List (List Char)
  | [] => [[]]
  | ch :: cs =>
    if ch = ',' then [] :: splitCommas cs
    else
      match splitCommas cs with
      | [] => [[ch]]
      | w :: ws => (ch :: w) :: ws

/-- A decimal natural number. -/
def parseNat (cs : List Char) : Option Nat :=
  if cs.isEmpty || !cs.all Char.isDigit then none
  else some (cs.foldl (fun n ch => 10 * n + (ch.toNat - '0'.toNat)) 0)

/-- A `<code>` operand: a digit literal between quotes, or a decimal integer. -/
def parseCode : List Char → Option CodeOperand
  | ['\'', ch, '\''] => some (.literal ch)
  | '-' :: ds => (parseNat ds).map (fun n => .int (-(n : Int)))
  | ds => (parseNat ds).map (fun n => .int (n : Int))

/-- A quoted digit literal, the first operand of the pseudo-instruction DIGIT. -/
def parseLiteral : List Char → Option Char
  | ['\'', ch, '\''] => some ch
  | _ => none

/-- A command from its mnemonic and its operands (R73, R74). -/
def parseCommand (m : List Char) (ops : List (List Char)) : Option Command :=
  match ops with
  | [] =>
    if m = "INIT".toList then some .init
    else if m = "NOP".toList then some .nop
    else none
  | [a] =>
    if m = "PAUSE".toList then (parseNat a).map .pause
    else if m = "CHIRP_UP".toList then (parseNat a).map .chirpUp
    else if m = "BEEP_HIGH".toList then (parseNat a).map .beepHigh
    else if m = "BEEP_LOW".toList then (parseNat a).map .beepLow
    else if m = "CHIRP_DOWN".toList then (parseNat a).map .chirpDown
    else none
  | [a, b] =>
    if m = "PLAY".toList then (parseCode a).bind (fun code => (parseNat b).map (.play code))
    else if m = "DIGIT".toList then (parseLiteral a).bind (fun ch => (parseNat b).map (.digit ch))
    else none
  | _ => none

/-- The operands of a command's tail: none when only blanks stand there. -/
def parseOperands (cs : List Char) : List (List Char) :=
  if (trimBlanks cs).isEmpty then [] else (splitCommas cs).map trimBlanks

/-- One line of text. -/
def parseLine (text : List Char) : Line :=
  let body := trimBlanks (text.takeWhile (fun ch => ch != ';'))
  if body.isEmpty then .empty
  else
    let name := body.takeWhile (fun ch => !isBlank ch)
    match parseCommand name (parseOperands (body.drop name.length)) with
    | some cmd => .command cmd
    | none => .malformed

/-- The words of a program given line by line, none when a line is in error. -/
def assembleLines (c : Config) : List (List Char) → Option (List Word)
  | [] => some []
  | line :: rest =>
    match parseLine line with
    | .empty => assembleLines c rest
    | .malformed => none
    | .command cmd => (assembleCommand c cmd).bind (fun w => (assembleLines c rest).map (w :: ·))

end Sys2Proof.Machine
end

