-- ==== Sys2Proof/Safety.lean ====
section
/-! DEFINITION. The terms in which claims are made: clean entry, the end of a run, the observed output, and the invariant
of the sequencer. -/

namespace Sys2Proof.Machine

/-- The machine right after reset with a host program to issue, under some schedule: the clean-entry premise
(70_reset_and_hazards.md R162). -/
def State.entry (prog : List Word) (schedule : List Agent) : State :=
  { State.reset with hostProg := prog, schedule := schedule }

/-- `k` steps of the machine with configuration `c`, stopping at the first fault or refusal. -/
def runWith (c : Config) : Nat → State → Host.Outcome State Fault Refusal
  | 0, s => .next s
  | k + 1, s =>
    match stepWith c s with
    | .next t => runWith c k t
    | .fault r => .fault r
    | .refused r => .refused r

/-- How many segments the PLAY of code `code` has (42_tone_controller.md R106). -/
def segmentsOf (c : Config) (code : Code) : Nat := segCountNat (noteCount (toneOf c (codeClass c code)).notes)

/-- A run has ended successfully: no next word, the DONE of the last word emitted, no fault (44_host_commands.md R135). A
program of no words has no last word, and R135 is silent on it: here it has ended at once (DESIGN CHOICE, log entry 19;
unsafe for that program alone). -/
def State.ended (s : State) : Bool :=
  s.hostProg.isEmpty && s.hostWait.isNone && s.fault.isNone

/-- A faulted end, never a successful one (R135). -/
def State.faultedEnd (s : State) : Bool := s.fault.isSome

/-- The events of the block's output: SAMPLE, GATE and INHIBIT (R134). -/
def Event.isOutput : Event → Bool
  | .cmd _ => false
  | .done _ => false
  | .sample _ _ => true
  | .gate _ => true
  | .inhibit _ => true
  | .fault _ _ => false

/-- The block's output, as a model observes it (R134). -/
def State.output (s : State) : List Event := s.history.filter Event.isOutput

/-- Whether an event is a SAMPLE: one for every TICK (40_tick_engine.md R86). -/
def Event.isSample : Event → Bool
  | .cmd _ => false
  | .done _ => false
  | .sample _ _ => true
  | .gate _ => false
  | .inhibit _ => false
  | .fault _ _ => false

/-- How many TICK steps the history records. -/
def State.tickSteps (s : State) : Nat := s.history.countP Event.isSample

/-- The sequencer's states after ZERO_HI's turn or before SET_HI's, in which `step_hi` is 0 (R111, R117). -/
def CtrlPc.hiZero : CtrlPc → Bool
  | .idle | .mask | .resolve | .setHi | .zeroLo | .unmask => true
  | .setLo | .gateOn | .waitStart | .wait | .nextHi | .gateOff | .zeroHi => false

/-- The states in which `step_lo` is 0 (R112, R118). -/
def CtrlPc.loZero : CtrlPc → Bool
  | .idle | .mask | .resolve | .setHi | .setLo | .unmask => true
  | .gateOn | .waitStart | .wait | .nextHi | .gateOff | .zeroHi | .zeroLo => false

/-- The states in which the gate may be open: from GATE_ON's end to GATE_OFF (R113, R116). -/
def CtrlPc.toneOn : CtrlPc → Bool
  | .waitStart | .wait | .nextHi | .gateOff => true
  | .idle | .mask | .resolve | .setHi | .setLo | .gateOn | .zeroHi | .zeroLo | .unmask => false

/-- The states in which `dial_inhibit` is 1: after MASK and up to UNMASK (R105, R119, 10_state.md R29). -/
def CtrlPc.dialsOff : CtrlPc → Bool
  | .idle | .mask => false
  | .resolve | .setHi | .setLo | .gateOn | .waitStart | .wait | .nextHi | .gateOff | .zeroHi | .zeroLo | .unmask => true

/-- The states in which the segment registers hold the current PLAY's tone (10_state.md R34). -/
def CtrlPc.segmented : CtrlPc → Bool
  | .setHi | .setLo | .gateOn | .waitStart | .wait | .nextHi | .gateOff => true
  | .idle | .mask | .resolve | .zeroHi | .zeroLo | .unmask => false

/-- What holds of the machine between any two steps of a run: the registers agree with the sequencer's state, a PLAY in
progress is the one that the HOST waits for, and it came after INIT (42_tone_controller.md R103 to R120,
44_host_commands.md R129, R132). -/
structure State.Inv (s : State) : Prop where
  /-- The timer and the pin are configured together, by INIT (R131). -/
  init : s.pinOut = s.timerOn
  /-- A PLAY only starts after INIT (R132). -/
  playing : s.ctrlPc ≠ .idle → s.timerOn = true
  /-- `step_hi` is 0 outside a tone (R120). -/
  stepHi : s.ctrlPc.hiZero = true → s.stepHi = 0#8
  /-- `step_lo` is 0 outside a tone (R120). -/
  stepLo : s.ctrlPc.loZero = true → s.stepLo = 0#8
  /-- The gate is open exactly while an audible tone is on (R109, R113, R116). -/
  gate : s.gateEn = (s.ctrlPc.toneOn && s.audible)
  /-- The dial interrupts are masked exactly from MASK to UNMASK (R29). -/
  inhibit : s.dialInhibit = s.ctrlPc.dialsOff
  /-- `seg_idx` names one of the segments (R34). -/
  segment : s.ctrlPc.segmented = true → s.segIdx.val < segCountNat s.nSeg
  /-- A wait target is below the counter's wrap (00_scope.md R12, 40_tick_engine.md R85). -/
  target : s.ctrlPc.segmented = true → s.segTicks.toNat ≤ 2 ^ 32 - 2
  /-- NEXT_HI is reached with 1 <= seg_idx (R115). -/
  next : s.ctrlPc = .nextHi → 1 ≤ s.segIdx.val
  /-- At IDLE with no fault the HOST waits for nothing; during a PLAY it waits for that PLAY (R129). -/
  waiting : s.fault = none →
    s.hostWait = if s.ctrlPc = .idle then none else some s.latchedWord
  /-- A PLAY in progress has a nonzero duration (R29, R104). -/
  nonzero : s.ctrlPc ≠ .idle → s.cmdDur ≠ 0#16

/-! ### Endless runs and fairness (70_reset_and_hazards.md R170) -/

/-- An execution: one total order of atomic steps (20_memory.md R57). `state n` is the state before step `n`, and `mover n`
the agent whose step it is; none when no agent is enabled, and then the execution stays where it is. Every interleaving of
enabled steps is one, whatever `schedule` says: the agents' steps never read it. -/
structure Execution (c : Config) where
  state : Nat → State
  mover : Nat → Option Agent
  moves : ∀ n a, mover n = some a →
    (state n).enabled a = true ∧ agentStep c a (state n) = .next (state (n + 1))
  rests : ∀ n, mover n = none → (∀ a, (state n).enabled a = false) ∧ state (n + 1) = state n

namespace Execution

variable {c : Config}

/-- Weak fairness of one agent: "an agent whose step stays enabled eventually takes it" (R170). -/
def WeaklyFair (e : Execution c) (a : Agent) : Prop :=
  ∀ n, (∀ m, n ≤ m → (e.state m).enabled a = true) → ∃ m, n ≤ m ∧ e.mover m = some a

/-- R170's fairness, word for word, and nothing more. -/
structure WeakFair (e : Execution c) : Prop where
  /-- HOST is weakly fair. -/
  host : e.WeaklyFair .host
  /-- CTRL is weakly fair. -/
  ctrl : e.WeaklyFair .ctrl
  /-- "while `timer_on = 1` and `fault = none`, TICK steps occur infinitely often". -/
  tick : ∀ n, (∀ m, n ≤ m → (e.state m).timerOn = true ∧ (e.state m).fault = none) →
    ∃ m, n ≤ m ∧ e.mover m = some .tick

/-- "the Tick Counter cannot wrap within an epoch" (60_exceptions.md R143): no TICK during a WAIT takes it past 2^32 - 1.
"Outside an epoch it may wrap, and no rule reads it there" (90_conflicts.md C7), so nothing is asked of the ticks after the
WAIT. That it is a premise on executions is the model's reading, since R78 and R58 alone do not keep an execution from it
(DEDUCED, log entry 18; safe). -/
def EpochsDoNotWrap (e : Execution c) : Prop :=
  ∀ n, (e.state n).ctrlPc = .wait → e.mover n = some .tick → (e.state n).tickCnt.toNat + 1 < 2 ^ 32

/-- Fairness as the claims of termination rest on it: R170's, in an execution whose epochs do not wrap. In every such
execution a WAIT ends (41_duration_waiter.md R101). -/
structure Fair (e : Execution c) : Prop extends WeakFair e where
  epoch : e.EpochsDoNotWrap

/-- Strong fairness of CTRL: if it is enabled again and again, it eventually moves. It is not R170's. With it a WAIT ends
even where the counter wraps (log entry 18; safe). -/
def CtrlNotStarved (e : Execution c) : Prop :=
  ∀ n, (∀ m, n ≤ m → ∃ k, m ≤ k ∧ (e.state k).enabled .ctrl = true) → ∃ m, n ≤ m ∧ e.mover m = some .ctrl

/-- The premises of a claim about the host program `prog` (R162): the clean entry and fairness. The configuration's
well-formedness is in the type of `c`. -/
structure CleanRun (e : Execution c) (prog : List Word) : Prop where
  entry : ∃ schedule, e.state 0 = State.entry prog schedule
  fair : e.Fair

end Execution

end Sys2Proof.Machine
end

