-- ==== Sys2Proof/Certificates/Slice0/Obligations.lean ====
section
/-! DEFINITION. The statements for the provers. Each docstring names the rule it formalises. A statement about `stepWith c`
holds of `step`, which is `stepWith` at the machine's own configuration. -/

open Sys2Proof Sys2Proof.Machine

/-! ### Encoding -/

/-- 30_encoding.md R75: the encoded examples, from text to word and from word to command. -/
def Obligations.EncodedExamples : Prop :=
  (∀ c : Config,
    assembleLines c ["INIT".toList, "PLAY 5, 100".toList, "PLAY '#', 80".toList, "PLAY -11, 300".toList,
        "PLAY -1, 50".toList, "PLAY 0, 0".toList, "PLAY 127, 65535".toList] =
      some [0x01000000#32, 0x02050064#32, 0x020B0050#32, 0x02F5012C#32, 0x02FF0032#32, 0x02000000#32, 0x027FFFFF#32]) ∧
  decode 0x01000000#32 = .ok .init ∧
  decode 0x02050064#32 = .ok (.play 5#8 100#16) ∧
  decode 0x020B0050#32 = .ok (.play 11#8 80#16) ∧
  decode 0x02F5012C#32 = .ok (.play 0xF5#8 300#16) ∧
  decode 0x02FF0032#32 = .ok (.play 0xFF#8 50#16) ∧
  decode 0x02000000#32 = .ok (.play 0#8 0#16) ∧
  decode 0x027FFFFF#32 = .ok (.play 127#8 65535#16) ∧
  decode 0x01000001#32 = .illegal 0x01000001#32 ∧
  decode 0x00000000#32 = .illegal 0x00000000#32 ∧
  decode 0x03000000#32 = .illegal 0x03000000#32 ∧
  decode 0xFF123456#32 = .illegal 0xFF123456#32

/-- R64, R65, R67: decoding an encoded command gives it back, a decoded word is the encoding of its command, and a word
is ILLEGAL exactly when it encodes nothing. -/
def Obligations.DecodeEncodeAgree : Prop :=
  (∀ i : Instr, i.wf = true → decode (encode i) = .ok i) ∧
  (∀ (w : Word) (i : Instr), decode w = .ok i → encode i = w) ∧
  (∀ w : Word, decode w = .illegal w ↔ ∀ i : Instr, encode i ≠ w)

/-- R67 and R65, in numbers: what `decode` is on every word, `code` as the integer and `dur` as the natural number that
R65 reads from the word. -/
def Obligations.DecodeIsTotal : Prop :=
  ∀ w : Word,
    (w.toNat = 0x01000000 → decode w = .ok .init) ∧
    (w.toNat / 2 ^ 24 = 0x02 → ∃ (code : Code) (dur : Duration), decode w = .ok (.play code dur) ∧
      code.toInt = (if w.getLsbD 23 = true then ((w.toNat / 2 ^ 16 % 256 : Nat) : Int) - 256 else ((w.toNat / 2 ^ 16 % 256 : Nat) : Int)) ∧
      dur.toNat = w.toNat % 2 ^ 16) ∧
    (w.toNat ≠ 0x01000000 → w.toNat / 2 ^ 24 ≠ 0x02 → decode w = .illegal w)

/-- opcode_table.json and R67: the decoder reads a word as the command whose row covers it, and no two rows overlap. -/
def Obligations.DecoderFollowsOpcodeTable : Prop :=
  ∀ w : Word,
    (decode w = .ok .init ↔ initRow.covers w = true) ∧
    ((∃ code dur, decode w = .ok (.play code dur)) ↔ playRow.covers w = true) ∧
    (decode w = .illegal w ↔ ∀ r ∈ opcodeTable, r.covers w = false) ∧
    ¬ (initRow.covers w = true ∧ playRow.covers w = true)

/-- R73: the assembler emits a word exactly for operands in range, in numbers. A `<code>` integer of -128..127 or a digit
literal ('0'..'9' for 0..9, '*' for 10, '#' for 11) and a duration up to 65535 give the PLAY word of those values; any other
operand of a command or of a pseudo-instruction gives no word. -/
def Obligations.AssemblerChecksRanges : Prop :=
  ∀ c : Config,
    (∀ cmd : Command, assembleCommand c cmd = none ↔ cmd.wf = false) ∧
    (∀ (v : Int) (ms : Nat) (w : Word), assembleCommand c (.play (.int v) ms) = some w ↔
      (-128 ≤ v ∧ v ≤ 127) ∧ ms ≤ 65535 ∧ (w.toNat : Int) = 0x02000000 + v % 256 * 2 ^ 16 + ms) ∧
    (∀ (ch : Char) (ms : Nat) (w : Word), assembleCommand c (.play (.literal ch) ms) = some w ↔
      ∃ d : Nat, "0123456789*#".toList[d]? = some ch ∧ ms ≤ 65535 ∧ w.toNat = 0x02000000 + d * 2 ^ 16 + ms) ∧
    (∀ (ch : Char) (ms : Nat), assembleCommand c (.digit ch ms) = assembleCommand c (.play (.literal ch) ms)) ∧
    (∀ ms : Nat, ∀ cmd ∈ [Command.pause ms, .chirpUp ms, .beepHigh ms, .beepLow ms, .chirpDown ms],
      assembleCommand c cmd = none ↔ 65535 < ms) ∧
    (∀ (v : Int) (ms : Nat), -128 ≤ v → v ≤ 127 → ms ≤ 65535 →
      ∃ (w : Word) (code : Code) (dur : Duration), assembleCommand c (.play (.int v) ms) = some w ∧
        decode w = .ok (.play code dur) ∧ code.toInt = v ∧ dur.toNat = ms) ∧
    (∀ (ch : Char) (d ms : Nat), digitValue ch = some d → ms ≤ 65535 →
      ∃ (w : Word) (code : Code) (dur : Duration), assembleCommand c (.play (.literal ch) ms) = some w ∧
        decode w = .ok (.play code dur) ∧ code.toInt = (d : Int) ∧ dur.toNat = ms)

/-- R74: the word of every pseudo-instruction. -/
def Obligations.PseudoInstructionWords : Prop :=
  ∀ (c : Config) (ms : Nat), ms ≤ 65535 →
    (∀ (ch : Char) (d : Nat), digitValue ch = some d →
      ∃ w, assembleCommand c (.digit ch ms) = some w ∧ w.toNat = 0x02 * 2 ^ 24 + d * 2 ^ 16 + ms) ∧
    (∃ w, assembleCommand c (.pause ms) = some w ∧ w.toNat = 0x02FF0000 + ms) ∧
    assembleCommand c .nop = some 0x02FF0000#32 ∧
    (∃ w, assembleCommand c (.chirpUp ms) = some w ∧ w.toNat = 0x02F50000 + ms) ∧
    (∃ w code dur, assembleCommand c (.beepHigh ms) = some w ∧ decode w = .ok (.play code dur) ∧
      code.toInt = c.data.codeBeepHigh ∧ dur.toNat = ms) ∧
    (∃ w code dur, assembleCommand c (.beepLow ms) = some w ∧ decode w = .ok (.play code dur) ∧
      code.toInt = c.data.codeBeepLow ∧ dur.toNat = ms) ∧
    (∃ w code dur, assembleCommand c (.chirpDown ms) = some w ∧ decode w = .ok (.play code dur) ∧
      code.toInt = c.data.codeChirpDown ∧ dur.toNat = ms)

/-! ### Configuration and ROMs -/

/-- 00_scope.md R12, R13: parameters that break a constraint build no configuration, and any others do. -/
def Obligations.BadConfigurationIsRefused : Prop :=
  ∀ d : ConfigData, Config.build d ≠ none ↔
    (d.sineTable.length = 128 ∧ (∀ v ∈ d.sineTable, v ≤ 127)) ∧
    (d.freqMap.length = 12 ∧ (∀ e ∈ d.freqMap, e.1 ≤ 127 ∧ e.2 ≤ 127) ∧ d.freqMap[5]? = some (87, 50)) ∧
    (1 ≤ d.ticksPerMs ∧ 65535 * d.ticksPerMs ≤ 2 ^ 32 - 2) ∧
    (∀ v ∈ [d.codeBeepHigh, d.codeBeepLow, d.codeChirpDown], -128 ≤ v ∧ v < 0 ∧ v ≠ -11 ∧ v ≠ -1) ∧
    (d.codeBeepHigh ≠ d.codeBeepLow ∧ d.codeBeepHigh ≠ d.codeChirpDown ∧ d.codeBeepLow ≠ d.codeChirpDown) ∧
    (d.stepBeepHigh ≤ 255 ∧ d.stepBeepLow ≤ 255) ∧
    ((d.stepsChirpDown.length = 2 ∨ d.stepsChirpDown.length = 3) ∧ ∀ v ∈ d.stepsChirpDown, v ≤ 255) ∧
    (0 < d.tickRateHz.val ∧ 0 < d.pwmTop)

/-- 20_memory.md R46, R48, R47: the ROM lookups give the configured entries, and entry 5 is (87, 50). -/
def Obligations.RomLookups : Prop :=
  ∀ c : Config,
    (∀ i : Sample, c.data.sineTable[i.toNat]? = some (sine c i).toNat) ∧
    (∀ k : Fin 12, c.data.freqMap[k.val]? = some ((fmap c k).1.toNat, (fmap c k).2.toNat)) ∧
    fmap c 5 = (87#7, 50#7)

/-- 30_encoding.md R70: the class of every PLAY code, by its value. -/
def Obligations.CodeClassByValue : Prop :=
  ∀ (c : Config) (code : Code),
    (∀ k : Fin 12, codeClass c code = .digit k ↔ code.toInt = (k.val : Int)) ∧
    (codeClass c code = .beepHigh ↔ code.toInt = c.data.codeBeepHigh) ∧
    (codeClass c code = .beepLow ↔ code.toInt = c.data.codeBeepLow) ∧
    (codeClass c code = .chirpUp ↔ code.toInt = -11) ∧
    (codeClass c code = .chirpDown ↔ code.toInt = c.data.codeChirpDown) ∧
    (codeClass c code = .silence ↔
      (code.toInt < 0 ∨ 11 < code.toInt) ∧
        code.toInt ∉ [c.data.codeBeepHigh, c.data.codeBeepLow, -11, c.data.codeChirpDown]) ∧
    (code.toInt = -1 → codeClass c code = .silence)

/-! ### Host commands -/

/-- 44_host_commands.md R131: INIT at IDLE sets `timer_on` and `pin_out`, is DONE at once and changes nothing else; while
busy it raises BUSY; with a bit of [23:0] set its word is ILLEGAL. -/
def Obligations.InitConfiguresTimerAndPin : Prop :=
  (∀ s : State, s.fault = none → s.ctrlPc = .idle →
    exec .init s = .next { s with
      timerOn := true
      pinOut := true
      history := s.history ++ [.cmd 0x01000000#32, .done 0x01000000#32]
      hostWait := if s.hostWait = some 0x01000000#32 then none else s.hostWait }) ∧
  (∀ s : State, s.fault = none → s.ctrlPc ≠ .idle →
    exec .init s = .next { s with
      fault := some ⟨3#8, 0x01000000#32⟩
      history := s.history ++ [.cmd 0x01000000#32, .fault 3#8 0x01000000#32] }) ∧
  (∀ w : Word, opField w = 0x01#8 → w.extractLsb' 0 24 ≠ 0#24 → decode w = .illegal w)

/-- R133: a second INIT at IDLE leaves every register unchanged. -/
def Obligations.SecondInitChangesNothing : Prop :=
  ∀ s : State, s.fault = none → s.ctrlPc = .idle → s.timerOn = true → s.pinOut = true →
    ∃ t, exec .init s = .next t ∧ { t with history := s.history, hostWait := s.hostWait } = s

/-- R132: PLAY with a nonzero duration, after INIT and at IDLE, latches its operands and starts the sequencer at MASK. The
word is the one that the host wrote. -/
def Obligations.PlayStartsSequencer : Prop :=
  ∀ (w : Word) (code : Code) (dur : Duration) (s : State), decode w = .ok (.play code dur) →
    s.fault = none → s.ctrlPc = .idle → s.timerOn = true → dur ≠ 0#16 →
      exec (.play code dur) s = .next { s with
        cmdCode := code
        cmdDur := dur
        ctrlPc := .mask
        history := s.history ++ [.cmd w] }

/-- 42_tone_controller.md R104: PLAY with duration 0, for every code, is DONE at acceptance and changes only the latches. -/
def Obligations.PlayOfZeroDurationIsNoOp : Prop :=
  ∀ (w : Word) (code : Code) (s : State), decode w = .ok (.play code 0#16) →
    s.fault = none → s.ctrlPc = .idle → s.timerOn = true →
      exec (.play code 0#16) s = .next { s with
        cmdCode := code
        cmdDur := 0#16
        history := s.history ++ [.cmd w, .done w]
        hostWait := if s.hostWait = some w then none else s.hostWait }

/-- 60_exceptions.md R139: PLAY while `timer_on = 0` raises NOT_INITIALIZED, for every duration, 0 included. -/
def Obligations.PlayBeforeInitFaults : Prop :=
  ∀ (w : Word) (code : Code) (dur : Duration) (s : State), decode w = .ok (.play code dur) →
    s.fault = none → s.ctrlPc = .idle → s.timerOn = false →
      exec (.play code dur) s = .next { s with
        fault := some ⟨2#8, w⟩
        history := s.history ++ [.cmd w, .fault 2#8 w] }

/-- R140, R130: any word, an ILLEGAL one too, that arrives while `ctrl_pc != IDLE` raises BUSY. (That the HOST's own
position moves when it issues the word is the model's reading, log entry 8.) -/
def Obligations.WordWhileBusyFaults : Prop :=
  (∀ (i : Instr) (s : State), s.fault = none → s.ctrlPc ≠ .idle →
    exec i s = .next { s with
      fault := some ⟨3#8, encode i⟩
      history := s.history ++ [.cmd (encode i), .fault 3#8 (encode i)] }) ∧
  (∀ (w : Word) (rest : List Word) (s : State), s.fault = none → s.ctrlPc ≠ .idle → s.hostProg = w :: rest →
    hostStep s = .next { s with
      fault := some ⟨3#8, w⟩
      history := s.history ++ [.cmd w, .fault 3#8 w]
      hostProg := rest
      hostWait := some w })

/-- 30_encoding.md R68: an ILLEGAL word, issued at IDLE, raises ILLEGAL_COMMAND and does nothing else. (That the HOST's own
position moves is the model's reading, log entry 8.) -/
def Obligations.IllegalWordFaults : Prop :=
  ∀ (w : Word) (rest : List Word) (s : State), s.fault = none → s.ctrlPc = .idle → s.hostProg = w :: rest →
    decode w = .illegal w →
      hostStep s = .next { s with
        fault := some ⟨1#8, w⟩
        history := s.history ++ [.cmd w, .fault 1#8 w]
        hostProg := rest
        hostWait := some w }

/-- The frame of INIT and PLAY (R130 to R132): whatever the outcome, no datapath, gate or segment register changes; INIT
leaves the latches and the sequencer, PLAY the timer and the pin. -/
def Obligations.CommandFrame : Prop :=
  ∀ (i : Instr) (s t : State), exec i s = .next t →
    (t.accHi = s.accHi ∧ t.accLo = s.accLo ∧ t.stepHi = s.stepHi ∧ t.stepLo = s.stepLo ∧ t.duty = s.duty ∧
      t.tickCnt = s.tickCnt) ∧
    (t.gateEn = s.gateEn ∧ t.dialInhibit = s.dialInhibit) ∧
    (t.nSeg = s.nSeg ∧ t.segHi = s.segHi ∧ t.segLo = s.segLo ∧ t.segTicks = s.segTicks ∧ t.audible = s.audible ∧
      t.segIdx = s.segIdx) ∧
    (t.hostProg = s.hostProg ∧ t.schedule = s.schedule ∧ t.draws = s.draws) ∧
    (i = .init → t.cmdCode = s.cmdCode ∧ t.cmdDur = s.cmdDur ∧ t.ctrlPc = s.ctrlPc) ∧
    (i ≠ .init → t.timerOn = s.timerOn ∧ t.pinOut = s.pinOut) ∧
    (t.fault ≠ none → { t with fault := s.fault, history := s.history } = s)

/-! ### Steps and agents -/

/-- R129, R130: when it is the HOST's turn and its next word decodes to a command, the step runs that command, once the
word is taken from the program and the HOST waits for its DONE. (The schedule, the HOST's position and the placing of a
word are the model's: log entries 1, 5 and 8.) -/
def Obligations.StepRunsDecodedCommand : Prop :=
  (∀ (s : State) (w : Word) (rest : List Word) (i : Instr) (sch : List Agent),
    s.fault = none → s.hostWait = none → s.hostProg = w :: rest → s.schedule = .host :: sch → decode w = .ok i →
      step s = exec i { s with hostProg := rest, hostWait := some w, schedule := sch }) ∧
  (∀ (s : State) (w : Word) (rest : List Word) (i : Instr),
    s.fault = none → s.hostWait = none → s.hostProg = w :: rest → s.schedule = [] → s.ctrlPc = .idle →
    s.timerOn = false → decode w = .ok i →
      step s = exec i { s with hostProg := rest, hostWait := some w }) ∧
  (∀ (s : State) (n w : Nat) (v : Word) (i : Instr), tableWord n w = some v → decode v = .ok i →
      step (s.withFetchWord n w) = exec i { s with fault := none, hostWait := some v })

/-- 20_memory.md R58, 60_exceptions.md R147: whichever agent is enabled may move next. (How the model says who moves is
log entry 1.) -/
def Obligations.EveryEnabledAgentMayMove : Prop :=
  ∀ (c : Config) (s : State) (a : Agent) (sch : List Agent), s.enabled a = true →
    stepWith c { s with schedule := a :: sch } = agentStep c a { s with schedule := sch }

/-- R57, 60_exceptions.md R142: every step is the step of one enabled agent; the machine stops exactly when a fault is
recorded or no agent is enabled, and no word is turned away. -/
def Obligations.StepIsOneEnabledAgent : Prop :=
  ∀ (c : Config) (s : State),
    (∀ t, stepWith c s = .next t → ∃ a sch n, s.enabled a = true ∧
      agentStep c a { s with schedule := sch, draws := n } = .next t) ∧
    ((∃ a, s.enabled a = true) → ∃ t, stepWith c s = .next t) ∧
    (∀ f, s.fault = some f → stepWith c s = .fault (.halted f.code f.info)) ∧
    (s.fault = none → (∀ a, s.enabled a = false) → stepWith c s = .fault .noEnabledStep)

/-- R130, 40_tick_engine.md R76, 41_duration_waiter.md R96, 42_tone_controller.md R122: when each agent has an enabled
step. -/
def Obligations.WhenAgentsAreEnabled : Prop :=
  ∀ s : State,
    (s.enabled .host = true ↔ s.fault = none ∧ s.hostWait = none ∧ s.hostProg ≠ []) ∧
    (s.enabled .tick = true ↔ s.timerOn = true ∧ s.fault = none) ∧
    (s.enabled .ctrl = true ↔
      s.fault = none ∧ s.ctrlPc ≠ .idle ∧ (s.ctrlPc = .wait → s.segTicks.toNat < s.tickCnt.toNat))

/-- 60_exceptions.md R142, I25: once a fault is recorded no agent has a step, no command runs and the record stays. -/
def Obligations.FaultStopsEveryAgent : Prop :=
  ∀ (c : Config) (s : State) (f : FaultRecord), s.fault = some f →
    (∀ a, s.enabled a = false) ∧
    stepWith c s = .fault (.halted f.code f.info) ∧
    (∀ i, exec i s = .fault (.halted f.code f.info))

/-- R137, R142, R143, R147: a step that records a fault is a HOST step; the fault's code says which check failed, in
ISSUE's order; it is never DEADLINE_MISS; and nothing but the record, the two events and the HOST's own position changes
(log entry 8, and log entry 1 for the model's own fields). -/
def Obligations.FaultsArePrecise : Prop :=
  ∀ (c : Config) (s t : State) (f : FaultRecord), stepWith c s = .next t → t.fault = some f →
    ∃ w rest sch n, s.hostProg = w :: rest ∧ s.hostWait = none ∧
      t = { s with
        fault := some f
        history := s.history ++ [.cmd w, .fault f.code w]
        hostProg := rest
        hostWait := some w
        schedule := sch
        draws := n } ∧
      f.info = w ∧
      ((f.code = 3#8 ∧ s.ctrlPc ≠ .idle) ∨
        (f.code = 1#8 ∧ s.ctrlPc = .idle ∧ decode w = .illegal w) ∨
        (f.code = 2#8 ∧ s.ctrlPc = .idle ∧ s.timerOn = false ∧ ∃ code dur, decode w = .ok (.play code dur)))

/-! ### The tick engine -/

/-- 40_tick_engine.md R79: the index function in exact arithmetic, rounding to the nearest table entry. -/
def Obligations.IndexRoundsToNearest : Prop :=
  ∀ a : Phase,
    (tableIndex a).toNat = ((a.toNat + 4) % 1024) / 8 ∧
    (8 * (tableIndex a).toNat + 3 + 1024 - a.toNat % 1024) % 1024 ≤ 7

/-- R84: the blend lies in 0..223, 223 is reached, the low term is the ceiling of 3/4 of the low sample, and `duty` loses
no bit of it. -/
def Obligations.BlendIsExact : Prop :=
  (∀ hi lo : Sample, blend hi lo ≤ 223 ∧ blend hi lo = hi.toNat + (3 * lo.toNat + 3) / 4) ∧
  blend 127#7 127#7 = 223 ∧
  (∀ (c : Config) (s : State), (s.tickDuty c).toNat = blend (s.sampleHi c) (s.sampleLo c))

/-- R78: when a TICK is enabled, and what it does, in exact arithmetic over the configured Sine Table, and that nothing else changes. -/
def Obligations.TickSynthesizesSample : Prop :=
  ∀ (c : Config) (s : State), (s.enabled .tick = true ↔ s.timerOn = true ∧ s.fault = none) ∧ ∃ hi lo,
    c.data.sineTable[((tick c s).accHi.toNat + 4) / 8 % 128]? = some hi ∧
    (if s.stepLo = 0#8 then lo = 0
      else c.data.sineTable[((tick c s).accLo.toNat + 4) / 8 % 128]? = some lo) ∧
    (tick c s).accHi.toNat = (s.accHi.toNat + s.stepHi.toNat) % 2 ^ 16 ∧
    (tick c s).accLo.toNat = (if s.stepLo = 0#8 then s.accLo.toNat else (s.accLo.toNat + s.stepLo.toNat) % 2 ^ 16) ∧
    (tick c s).duty.toNat = hi + (lo - lo / 4) ∧
    (tick c s).tickCnt.toNat = (s.tickCnt.toNat + 1) % 2 ^ 32 ∧
    tick c s = { s with
      accHi := (tick c s).accHi
      accLo := (tick c s).accLo
      duty := (tick c s).duty
      tickCnt := (tick c s).tickCnt
      history := s.history ++ [.sample (tick c s).duty s.gateEn] }

/-- R81: with `step_lo = 0` the low accumulator keeps its value and `duty` is the high sample exactly. -/
def Obligations.SilentLowChannel : Prop :=
  ∀ (c : Config) (s : State), s.stepLo = 0#8 →
    (tick c s).accLo = s.accLo ∧ (tick c s).duty.toNat = (sine c (tableIndex (tick c s).accHi)).toNat

/-- R83: with `step_hi = 0` the high phase stays and the high sample is `SINE(idx(acc_hi))` on every tick; with both step
widths 0 every TICK writes that same value to `duty`. -/
def Obligations.SilentTicksWriteConstant : Prop :=
  ∀ (c : Config) (s : State) (n : Nat), s.stepHi = 0#8 →
    (ticks c n s).accHi = s.accHi ∧ (ticks c n s).sampleHi c = sine c (tableIndex s.accHi) ∧
    (s.stepLo = 0#8 → (ticks c n s).accLo = s.accLo ∧
      (ticks c (n + 1) s).duty.toNat = (sine c (tableIndex s.accHi)).toNat)

/-- R89: after `n` ticks of a constant step the phase is `(acc_0 + n x s) mod 1024`; it is back at its start exactly when
`P(s) = 1024 / gcd(s, 1024)` divides `n`; and the samples repeat with that period. Both channels. -/
def Obligations.PhasePeriodicity : Prop :=
  (∀ (c : Config) (s : State) (n : Nat),
    (ticks c n s).accHi.toNat % 1024 = (s.accHi.toNat + n * s.stepHi.toNat) % 1024 ∧
    ((ticks c n s).accHi.toNat % 1024 = s.accHi.toNat % 1024 ↔ phasePeriod s.stepHi ∣ n) ∧
    tableIndex (ticks c (n + phasePeriod s.stepHi) s).accHi = tableIndex (ticks c n s).accHi ∧
    (s.stepLo ≠ 0#8 →
      (ticks c n s).accLo.toNat % 1024 = (s.accLo.toNat + n * s.stepLo.toNat) % 1024 ∧
      ((ticks c n s).accLo.toNat % 1024 = s.accLo.toNat % 1024 ↔ phasePeriod s.stepLo ∣ n) ∧
      tableIndex (ticks c (n + phasePeriod s.stepLo) s).accLo = tableIndex (ticks c n s).accLo)) ∧
  phasePeriod 87 = 1024 ∧ phasePeriod 50 = 512 ∧ phasePeriod 34 = 512 ∧ phasePeriod 43 = 1024 ∧ phasePeriod 51 = 1024 ∧
  phasePeriod 64 = 16 ∧ phasePeriod 0 = 1

/-- R88: the accumulator bits above bit 9 never reach an observation. Two states that agree in everything but the
accumulators, and agree on these mod 1024, have the same history, pin, `dial_inhibit`, fault and sequencer state after any
number of steps of the machine, or stop in the same way. For a run of TICK steps alone it is enough that the step widths, the
gate and the history agree. -/
def Obligations.HighAccumulatorBitsAreUnobservable : Prop :=
  (∀ (c : Config) (k : Nat) (s t : State), t = { s with accHi := t.accHi, accLo := t.accLo } →
    s.accHi.toNat % 1024 = t.accHi.toNat % 1024 → s.accLo.toNat % 1024 = t.accLo.toNat % 1024 →
      (∀ u, runWith c k s = .next u → ∃ v, runWith c k t = .next v ∧ v.history = u.history ∧ v.pin = u.pin ∧
        v.dialInhibit = u.dialInhibit ∧ v.fault = u.fault ∧ v.ctrlPc = u.ctrlPc) ∧
      (∀ f, runWith c k s = .fault f → runWith c k t = .fault f)) ∧
  (∀ (c : Config) (s t : State) (n : Nat),
    s.accHi.toNat % 1024 = t.accHi.toNat % 1024 → s.accLo.toNat % 1024 = t.accLo.toNat % 1024 →
    s.stepHi = t.stepHi → s.stepLo = t.stepLo → s.gateEn = t.gateEn → s.history = t.history →
      (ticks c n s).history = (ticks c n t).history)

/-! ### The Duration Waiter -/

/-- 41_duration_waiter.md R95: WAIT_START. -/
def Obligations.WaitStartBeginsEpoch : Prop :=
  ∀ (c : Config) (s : State), s.ctrlPc = .waitStart →
    ctrlStep c s = { s with tickCnt := 0#32, ctrlPc := .wait }

/-- R96: WAIT is held while `tick_cnt <= seg_ticks`; once it is not, it goes to the next segment, or to GATE_OFF after the
last one. (That WAIT and not NEXT_HI increments `seg_idx` is the model's reading of R96 against R34, log entry 17.) -/
def Obligations.WaitHoldsThenAdvances : Prop :=
  ∀ (c : Config) (s : State), s.ctrlPc = .wait → s.fault = none → s.segIdx.val < segCountNat s.nSeg →
    (s.enabled .ctrl = true ↔ s.segTicks.toNat < s.tickCnt.toNat) ∧
    (s.segIdx.val + 1 < segCountNat s.nSeg → ∃ k : Fin 3, k.val = s.segIdx.val + 1 ∧
      ctrlStep c s = { s with segIdx := k, ctrlPc := .nextHi }) ∧
    (s.segIdx.val + 1 = segCountNat s.nSeg → ctrlStep c s = { s with ctrlPc := .gateOff })

/-- R97, R98: from the start of an epoch, `n` TICKs lift the hold exactly when `n` exceeds `seg_ticks`, for every `n`
below the counter's wrap; so a zero target waits for one tick. -/
def Obligations.HoldLiftsAfterTargetTicks : Prop :=
  ∀ (c : Config) (s : State) (n : Nat), s.ctrlPc = .wait → s.fault = none → s.tickCnt = 0#32 → n < 2 ^ 32 →
    ((ticks c n s).enabled .ctrl = true ↔ s.segTicks.toNat < n)

/-! ### The Tone Controller and the PWM Gate -/

/-- 42_tone_controller.md R105: MASK. -/
def Obligations.MaskDisablesDialInterrupts : Prop :=
  ∀ (c : Config) (s : State), s.ctrlPc = .mask →
    ctrlStep c s = { s with dialInhibit := true, history := s.history ++ [.inhibit true], ctrlPc := .resolve }

/-- R106 to R110: RESOLVE for every class of code: the notes, the low step width, the gate, the exact segment length with
the remainder dropped, and nothing else written. -/
def Obligations.ResolveTurnsCodeIntoNotes : Prop :=
  ∀ (c : Config) (s : State), s.ctrlPc = .resolve →
    ∃ notes : List Nat, ∃ t : State, ctrlStep c s = t ∧
      (∀ k : Fin 12, codeClass c s.cmdCode = .digit k → t.audible = true ∧
        ∃ e, c.data.freqMap[k.val]? = some e ∧ notes = [e.1] ∧ t.segLo.toNat = e.2) ∧
      (codeClass c s.cmdCode = .beepHigh → notes = [c.data.stepBeepHigh] ∧ t.segLo = 0#8 ∧ t.audible = true) ∧
      (codeClass c s.cmdCode = .beepLow → notes = [c.data.stepBeepLow] ∧ t.segLo = 0#8 ∧ t.audible = true) ∧
      (codeClass c s.cmdCode = .chirpUp → notes = [34, 43, 51] ∧ t.segLo = 0#8 ∧ t.audible = true) ∧
      (codeClass c s.cmdCode = .chirpDown → notes = c.data.stepsChirpDown ∧ t.segLo = 0#8 ∧ t.audible = true) ∧
      (codeClass c s.cmdCode = .silence → notes = [0] ∧ t.segLo = 0#8 ∧ t.audible = false) ∧
      segCountNat t.nSeg = notes.length ∧
      (∀ k : Fin 3, if k.val < notes.length then notes[k.val]? = some (segHiAt t.segHi k).toNat
        else segHiAt t.segHi k = segHiAt s.segHi k) ∧
      t.segTicks.toNat = s.cmdDur.toNat * c.data.ticksPerMs / notes.length ∧
      t = { s with
        nSeg := t.nSeg
        segHi := t.segHi
        segLo := t.segLo
        segTicks := t.segTicks
        audible := t.audible
        segIdx := 0
        ctrlPc := .setHi }

/-- R111, R112: SET_HI writes `seg_hi[0]` to `step_hi`, SET_LO writes `seg_lo` to `step_lo`. -/
def Obligations.SetupWritesStepWidths : Prop :=
  ∀ (c : Config) (s : State),
    (s.ctrlPc = .setHi → ctrlStep c s = { s with stepHi := s.segHi.note0, ctrlPc := .setLo }) ∧
    (s.ctrlPc = .setLo → ctrlStep c s = { s with stepLo := s.segLo, ctrlPc := .gateOn })

/-- R113, 43_pwm_gate.md R124: GATE_ON opens the gate for an audible code and not for silence; `duty` is not written. -/
def Obligations.GateOnOpensForAudible : Prop :=
  ∀ (c : Config) (s : State), s.ctrlPc = .gateOn →
    (s.audible = true →
      ctrlStep c s = { s with gateEn := true, history := s.history ++ [.gate true], ctrlPc := .waitStart }) ∧
    (s.audible = false → ctrlStep c s = { s with ctrlPc := .waitStart })

/-- R115: NEXT_HI writes `seg_hi[seg_idx]` to `step_hi` and nothing else but `ctrl_pc`. (That it leaves `seg_idx` alone,
which R34 says NEXT_HI writes, is the model's reading, log entry 17.) -/
def Obligations.NextHiChangesOnlyHighStep : Prop :=
  ∀ (c : Config) (s : State), s.ctrlPc = .nextHi →
    (s.segIdx.val = 1 → ctrlStep c s = { s with stepHi := s.segHi.note1, ctrlPc := .waitStart }) ∧
    (s.segIdx.val = 2 → ctrlStep c s = { s with stepHi := s.segHi.note2, ctrlPc := .waitStart })

/-- R116, 43_pwm_gate.md R125: GATE_OFF closes the gate and writes 0 to `duty`; the pin is LOW once it is an output. -/
def Obligations.GateOffForcesPinLow : Prop :=
  ∀ (c : Config) (s : State), s.ctrlPc = .gateOff →
    ctrlStep c s = { s with
      gateEn := false
      duty := 0#8
      history := s.history ++ [.gate false]
      ctrlPc := .zeroHi } ∧
    (s.pinOut = true → (ctrlStep c s).pin = .low)

/-- R117, R118: ZERO_HI and ZERO_LO. -/
def Obligations.TeardownZeroesStepWidths : Prop :=
  ∀ (c : Config) (s : State),
    (s.ctrlPc = .zeroHi → ctrlStep c s = { s with stepHi := 0#8, ctrlPc := .zeroLo }) ∧
    (s.ctrlPc = .zeroLo → ctrlStep c s = { s with stepLo := 0#8, ctrlPc := .unmask })

/-- R119: UNMASK re-enables the dial interrupts and emits DONE for the PLAY of the latched code and duration. (That the
word of DONE comes from the latches is the model's reading, log entry 9.) -/
def Obligations.UnmaskCompletesPlay : Prop :=
  ∀ (c : Config) (s : State) (w : Word), s.ctrlPc = .unmask → decode w = .ok (.play s.cmdCode s.cmdDur) →
    ctrlStep c s = { s with
      dialInhibit := false
      history := s.history ++ [.inhibit false, .done w]
      hostWait := if s.hostWait = some w then none else s.hostWait
      ctrlPc := .idle }

/-- 43_pwm_gate.md R126: the gate's operations are idempotent but for one GATE event each, and the pin stays LOW. -/
def Obligations.GateIsIdempotent : Prop :=
  (∀ s : State, s.gateEn = true → gateEnable s = { s with history := s.history ++ [.gate true] }) ∧
  (∀ s : State, s.gateEn = false → gateDisable s = { s with duty := 0#8, history := s.history ++ [.gate false] }) ∧
  (∀ s : State, gateDisable (gateDisable s) =
    { gateDisable s with history := s.history ++ [.gate false, .gate false] }) ∧
  (∀ s : State, s.pinOut = true → (gateDisable s).pin = .low ∧ (gateDisable (gateDisable s)).pin = .low)

/-- 10_state.md R31: the pin as a function of state. -/
def Obligations.PinFollowsState : Prop :=
  ∀ s : State,
    (s.pinOut = false → s.pin = .undriven) ∧
    (s.pinOut = true → s.gateEn = false → s.pin = .low) ∧
    (s.pinOut = true → s.gateEn = true → s.pin = .pwm s.duty)

/-- 10_state.md R25, R26, R27, R91: who writes what. CTRL never writes the accumulators, writes `duty` only as the 0 of
GATE_OFF and `tick_cnt` only as the 0 of WAIT_START; TICK writes no step width, gate, timer, pin or inhibit register and none
of the sequencer's (`ctrl_pc`, the command latches, the segment registers); a command writes no datapath register. -/
def Obligations.SingleWriterDiscipline : Prop :=
  (∀ (c : Config) (s : State),
    (ctrlStep c s).accHi = s.accHi ∧ (ctrlStep c s).accLo = s.accLo ∧
    ((ctrlStep c s).duty ≠ s.duty → s.ctrlPc = .gateOff ∧ (ctrlStep c s).duty = 0#8) ∧
    ((ctrlStep c s).tickCnt ≠ s.tickCnt → s.ctrlPc = .waitStart ∧ (ctrlStep c s).tickCnt = 0#32) ∧
    (ctrlStep c s).timerOn = s.timerOn ∧ (ctrlStep c s).pinOut = s.pinOut) ∧
  (∀ (c : Config) (s : State),
    (tick c s).stepHi = s.stepHi ∧ (tick c s).stepLo = s.stepLo ∧ (tick c s).gateEn = s.gateEn ∧
    (tick c s).timerOn = s.timerOn ∧ (tick c s).pinOut = s.pinOut ∧ (tick c s).dialInhibit = s.dialInhibit ∧
    (tick c s).ctrlPc = s.ctrlPc ∧ (tick c s).cmdCode = s.cmdCode ∧ (tick c s).cmdDur = s.cmdDur ∧
    (tick c s).nSeg = s.nSeg ∧ (tick c s).segHi = s.segHi ∧ (tick c s).segLo = s.segLo ∧
    (tick c s).segTicks = s.segTicks ∧ (tick c s).audible = s.audible ∧ (tick c s).segIdx = s.segIdx) ∧
  (∀ (i : Instr) (s t : State), exec i s = .next t →
    t.accHi = s.accHi ∧ t.accLo = s.accLo ∧ t.stepHi = s.stepHi ∧ t.stepLo = s.stepLo ∧ t.duty = s.duty ∧
    t.tickCnt = s.tickCnt)

/-- 10_state.md R26, R27: over every step, `timer_on` and `pin_out` are never cleared, and a step that sets one of them
is the HOST step that issues INIT: it takes the word from the host program and appends its CMD and DONE; while
`timer_on = 1` and no fault is recorded, TICK is enabled. -/
def Obligations.TimerNeverStops : Prop :=
  ∀ (c : Config) (s t : State), stepWith c s = .next t →
    (s.timerOn = true → t.timerOn = true) ∧ (s.pinOut = true → t.pinOut = true) ∧
    (t.timerOn ≠ s.timerOn ∨ t.pinOut ≠ s.pinOut → ∃ rest,
      s.hostProg = 0x01000000#32 :: rest ∧ t.hostProg = rest ∧
      t.history = s.history ++ [.cmd 0x01000000#32, .done 0x01000000#32] ∧
      t.timerOn = true ∧ t.pinOut = true) ∧
    (t.timerOn = true → t.fault = none → t.enabled .tick = true)

/-- 42_tone_controller.md R103, 10_state.md R32: over every step the sequencer stays where it is or goes to the state that
the sequence of one PLAY names next. -/
def Obligations.SequencerOrder : Prop :=
  ∀ (c : Config) (s t : State), stepWith c s = .next t → t.ctrlPc ≠ s.ctrlPc →
    (s.ctrlPc, t.ctrlPc) ∈
      [(CtrlPc.idle, CtrlPc.mask), (.mask, .resolve), (.resolve, .setHi), (.setHi, .setLo), (.setLo, .gateOn),
        (.gateOn, .waitStart), (.waitStart, .wait), (.wait, .nextHi), (.nextHi, .waitStart), (.wait, .gateOff),
        (.gateOff, .zeroHi), (.zeroHi, .zeroLo), (.zeroLo, .unmask), (.unmask, .idle)]

/-! ### The whole machine -/

/-- 10_state.md R39, 70_reset_and_hazards.md R158: the values that the spec gives for reset, the empty history, and that
only HOST can step. (R39's unspecified registers are free values, log entry 4; nothing is said of them.) -/
def Obligations.ResetState : Prop :=
  (State.reset.accHi = 0#16 ∧ State.reset.accLo = 0#16 ∧ State.reset.stepHi = 0#8 ∧ State.reset.stepLo = 0#8) ∧
  (State.reset.timerOn = false ∧ State.reset.pinOut = false ∧ State.reset.gateEn = false ∧
    State.reset.dialInhibit = false ∧ State.reset.fault = none ∧ State.reset.ctrlPc = .idle) ∧
  State.reset.pin = .undriven ∧ State.reset.history = [] ∧
  (∀ prog sch, (State.entry prog sch).enabled .tick = false ∧ (State.entry prog sch).enabled .ctrl = false ∧
    ((State.entry prog sch).enabled .host = true ↔ prog ≠ []))

/-- R120, R109, R29: the invariant holds right after reset, whatever the program and the schedule. -/
def Obligations.ResetMeetsInvariant : Prop :=
  ∀ (prog : List Word) (sch : List Agent), (State.entry prog sch).Inv

/-- R120, R109, R29, R129: every step keeps the invariant of the sequencer. -/
def Obligations.StepKeepsInvariant : Prop :=
  ∀ s t : State, s.Inv → step s = .next t → t.Inv

/-- 60_exceptions.md R140, 44_host_commands.md R129: a single HOST that waits for DONE never raises BUSY. -/
def Obligations.BlockingHostNeverBusy : Prop :=
  ∀ (c : Config) (s t : State) (f : FaultRecord), s.Inv → stepWith c s = .next t → t.fault = some f → f.code ≠ 3#8

/-- 44_host_commands.md R129: while the HOST waits for the DONE of `w` it issues nothing, and a step ends the wait only by
emitting DONE(w). -/
def Obligations.HostWaitsForDone : Prop :=
  ∀ (c : Config) (s t : State) (w : Word), s.hostWait = some w → stepWith c s = .next t →
    t.hostProg = s.hostProg ∧ (t.hostWait = some w ∨ (t.hostWait = none ∧ t.history.getLast? = some (.done w)))

/-- 42_tone_controller.md R120: the step that completes a PLAY leaves both step widths 0, the gate closed, the dial
interrupts enabled and the sequencer at IDLE, emits the PLAY's DONE and frees the HOST. -/
def Obligations.PlayLeavesBlockQuiet : Prop :=
  ∀ (c : Config) (s t : State), s.Inv → stepWith c s = .next t → s.ctrlPc ≠ .idle → t.ctrlPc = .idle →
    t.stepHi = 0#8 ∧ t.stepLo = 0#8 ∧ t.gateEn = false ∧ t.dialInhibit = false ∧ t.hostWait = none ∧
    t.history = s.history ++ [.inhibit false, .done s.latchedWord]

/-- 44_host_commands.md R134: the history is append-only; a TICK appends one SAMPLE of the duty it wrote, a command's first
event is its CMD. -/
def Obligations.HistoryIsAppendOnly : Prop :=
  (∀ (c : Config) (s t : State), stepWith c s = .next t → s.history <+: t.history) ∧
  (∀ (c : Config) (s : State), (tick c s).history = s.history ++ [.sample (tick c s).duty s.gateEn]) ∧
  (∀ (i : Instr) (s t : State), exec i s = .next t → ∃ es, t.history = s.history ++ .cmd (encode i) :: es)

/-- R135: after a successful end only the timer goes on: a further step changes `duty`, `tick_cnt` and the history and no
other register, and the run is still ended. (The schedule and the draws are the model's, log entry 1; that an
empty program has ended is log entry 19.) -/
def Obligations.EndStateIsStable : Prop :=
  ∀ (c : Config) (s t : State), s.Inv → s.ended = true → stepWith c s = .next t →
    t.ended = true ∧ ∃ sch n, t = { s with
      duty := t.duty
      tickCnt := s.tickCnt + 1#32
      history := s.history ++ [.sample t.duty false]
      schedule := sch
      draws := n }

/-- 10_state.md R35: at IDLE no value of the command latches and the segment registers can be observed. Whatever they hold
there, and whatever follows, the history, the pin, the fault record and the way the run stops are the same. (So the free
reset values of log entry 4 that R39 calls "never read while IDLE" are never seen.) -/
def Obligations.LatchesAreUnobservableAtIdle : Prop :=
  ∀ (c : Config) (k : Nat) (s t : State), s.ctrlPc = .idle →
    t = { s with
      cmdCode := t.cmdCode
      cmdDur := t.cmdDur
      nSeg := t.nSeg
      segHi := t.segHi
      segLo := t.segLo
      segTicks := t.segTicks
      audible := t.audible
      segIdx := t.segIdx } →
    (∀ u, runWith c k s = .next u → ∃ v, runWith c k t = .next v ∧ v.history = u.history ∧ v.pin = u.pin ∧
      v.dialInhibit = u.dialInhibit ∧ v.fault = u.fault ∧ v.ctrlPc = u.ctrlPc) ∧
    (∀ f, runWith c k s = .fault f → runWith c k t = .fault f)

/-- 42_tone_controller.md R121: the duration law. Over any run from MASK to the first arrival at UNMASK, under any schedule,
at least `n_seg x (ticks(D) div n_seg + 1)` TICK steps occur, and so more than `ticks(D)`. -/
def Obligations.DurationLaw : Prop :=
  ∀ (c : Config) (k : Nat) (s t : State), s.ctrlPc = .mask → runWith c k s = .next t → t.ctrlPc = .unmask →
    (∀ j u, j < k → runWith c j s = .next u → u.ctrlPc ≠ .unmask) →
      s.tickSteps + segmentsOf c s.cmdCode * (ticksOf c s.cmdDur / segmentsOf c s.cmdCode + 1) ≤ t.tickSteps ∧
      s.tickSteps + ticksOf c s.cmdDur + 1 ≤ t.tickSteps

/-- R109, R113: the gate is never opened for silence, under any schedule. -/
def Obligations.SilenceNeverOpensGate : Prop :=
  ∀ (c : Config) (k : Nat) (s t : State), s.ctrlPc = .mask → s.gateEn = false →
    codeClass c s.cmdCode = .silence → runWith c k s = .next t →
    (∀ j u, j < k → runWith c j s = .next u → u.ctrlPc ≠ .idle) →
      t.gateEn = false ∧ Event.gate true ∉ t.history.drop s.history.length

/-- 41_duration_waiter.md R101, 44_host_commands.md R135: a PLAY can always be brought to its end: from any state of the
invariant in which one is in progress, some schedule completes it without a fault. -/
def Obligations.PlayCanComplete : Prop :=
  ∀ (c : Config) (s : State), s.Inv → s.fault = none → s.ctrlPc ≠ .idle →
    ∃ sch k t, runWith c k { s with schedule := sch } = .next t ∧ t.ctrlPc = .idle ∧ t.fault = none ∧
      t.hostWait = none ∧ t.history.getLast? = some (.done s.latchedWord)

/-! ### Fair executions -/

/-- 41_duration_waiter.md R101, 60_exceptions.md R143, 70_reset_and_hazards.md R170: what fairness gives a wait. In every
execution the hold of a WAIT lifts, since while it is held only TICK has a step. In every fair execution, whose epochs do not
wrap, the WAIT ends, as R101 says; it also ends where CTRL is not starved. R170's fairness without either does not end it:
`tick_cnt` may wrap past the target while CTRL is enabled and does not move, and the hold comes back (log entry 18). -/
def Obligations.FairnessAndWaits : Prop :=
  (∀ (c : Config) (e : Execution c) (n : Nat), (e.state n).Inv → (e.state n).fault = none →
    (e.state n).ctrlPc = .wait →
      ∃ m, n ≤ m ∧ (e.state m).ctrlPc = .wait ∧ (e.state m).segTicks.toNat < (e.state m).tickCnt.toNat) ∧
  (∀ (c : Config) (e : Execution c) (n : Nat), e.Fair ∨ e.CtrlNotStarved → (e.state n).Inv →
    (e.state n).fault = none → (e.state n).ctrlPc = .wait → ∃ m, n ≤ m ∧ (e.state m).ctrlPc ≠ .wait) ∧
  (∀ (c : Config) (s : State), s.Inv → s.fault = none → s.ctrlPc = .wait →
    ∃ e : Execution c, e.state 0 = s ∧ e.WeakFair ∧ ∀ n, (e.state n).ctrlPc = .wait)

/-- 44_host_commands.md R135, 41_duration_waiter.md R101, 70_reset_and_hazards.md R161, R162: every clean run comes to an end;
and when the program begins with INIT and no word is ILLEGAL, to a successful one. The same of a run from the clean entry
with R170's fairness alone, if CTRL is not starved. (The choice between the two premises is log entry 18's, the placing of a
program log entry 5's, the end of the empty program log entry 19's.) -/
def Obligations.CleanRunsEnd : Prop :=
  ∀ (c : Config) (e : Execution c) (prog : List Word),
    e.CleanRun prog ∨ ((∃ sch, e.state 0 = State.entry prog sch) ∧ e.WeakFair ∧ e.CtrlNotStarved) →
      (∃ n, (e.state n).ended = true ∨ (e.state n).faultedEnd = true) ∧
      (prog.head? = some 0x01000000#32 → (∀ w ∈ prog, decode w ≠ .illegal w) → ∃ n, (e.state n).ended = true)
end

