-- ==== Sys2Proof/Laws/Decode.lean ====
section
/-! SUPPORT. The fields of a command word: what each field of a packed word is, and that a word is its fields. -/

namespace Sys2Proof

@[simp] theorem opField_packWord (op : BitVec 8) (code : Code) (dur : Duration) :
    opField (packWord op code dur) = op := by
  ext i hi
  simp [packWord, opField]
  grind

@[simp] theorem codeField_packWord (op : BitVec 8) (code : Code) (dur : Duration) :
    codeField (packWord op code dur) = code := by
  ext i hi
  simp [packWord, codeField]
  grind

@[simp] theorem durField_packWord (op : BitVec 8) (code : Code) (dur : Duration) :
    durField (packWord op code dur) = dur := by
  ext i hi
  simp [packWord, durField]
  grind

/-- A command word is its three fields. -/
theorem packWord_fields (w : Word) : packWord (opField w) (codeField w) (durField w) = w := by
  ext i hi
  simp [packWord, opField, codeField, durField]
  grind

/-- The mask of PLAY's row keeps the opcode field and clears the rest. -/
theorem and_opMask (w : Word) : w &&& 0xFF000000#32 = (opField w).setWidth 32 <<< 24 := by
  have keep : ∀ x : BitVec 8,
      w &&& (x.setWidth 32 <<< 24) = (opField w &&& x).setWidth 32 <<< 24 := by
    intro x
    ext i hi
    by_cases h : i < 24
    · simp only [BitVec.getElem_and, BitVec.getElem_shiftLeft, h]
      simp
    · simp only [BitVec.getElem_and, BitVec.getElem_shiftLeft, h, opField]
      simp
      grind
  have hm : 0xFF000000#32 = (BitVec.allOnes 8).setWidth 32 <<< 24 := by decide
  rw [hm, keep, BitVec.and_allOnes]

/-- A shifted opcode field tells its value. -/
theorem opcode_shift_inj {x y : BitVec 8}
    (h : (x.setWidth 32 <<< 24 : Word) = y.setWidth 32 <<< 24) : x = y := by
  have hx : ∀ z : BitVec 8, opField (z.setWidth 32 <<< 24) = z := by
    intro z
    ext i hi
    simp [opField]
    grind
  simpa [hx] using congrArg opField h

/-- Whether a word is in PLAY's row is its opcode field alone. -/
theorem playRow_covers (w : Word) : playRow.covers w = decide (opField w = 0x02#8) := by
  have hp : 0x02000000#32 = (0x02#8).setWidth 32 <<< 24 := by decide
  unfold OpcodeRow.covers playRow
  simp only [and_opMask, hp, beq_eq_decide]
  exact decide_eq_decide.mpr ⟨fun h => opcode_shift_inj h, fun h => by rw [h]⟩

/-- INIT's row holds the one word. -/
theorem initRow_covers (w : Word) : initRow.covers w = decide (w = 0x01000000#32) := by
  have hm : (0xFFFFFFFF#32 : Word) = BitVec.allOnes 32 := by decide
  unfold OpcodeRow.covers initRow
  simp only [hm, BitVec.and_allOnes, beq_eq_decide]

end Sys2Proof
end

