-- ==== Sys2Proof/Laws/State.lean ====
section
/-! SUPPORT. One lemma per field of State for each named update of it, so that no later proof unfolds an update. -/

namespace Sys2Proof.Machine

/-! ### State.emit -/

@[simp] theorem State.emit_accHi (e : Event) (s : State) : (s.emit e).accHi = s.accHi := rfl
@[simp] theorem State.emit_accLo (e : Event) (s : State) : (s.emit e).accLo = s.accLo := rfl
@[simp] theorem State.emit_stepHi (e : Event) (s : State) : (s.emit e).stepHi = s.stepHi := rfl
@[simp] theorem State.emit_stepLo (e : Event) (s : State) : (s.emit e).stepLo = s.stepLo := rfl
@[simp] theorem State.emit_duty (e : Event) (s : State) : (s.emit e).duty = s.duty := rfl
@[simp] theorem State.emit_tickCnt (e : Event) (s : State) : (s.emit e).tickCnt = s.tickCnt := rfl
@[simp] theorem State.emit_timerOn (e : Event) (s : State) : (s.emit e).timerOn = s.timerOn := rfl
@[simp] theorem State.emit_pinOut (e : Event) (s : State) : (s.emit e).pinOut = s.pinOut := rfl
@[simp] theorem State.emit_gateEn (e : Event) (s : State) : (s.emit e).gateEn = s.gateEn := rfl
@[simp] theorem State.emit_dialInhibit (e : Event) (s : State) : (s.emit e).dialInhibit = s.dialInhibit := rfl
@[simp] theorem State.emit_fault (e : Event) (s : State) : (s.emit e).fault = s.fault := rfl
@[simp] theorem State.emit_ctrlPc (e : Event) (s : State) : (s.emit e).ctrlPc = s.ctrlPc := rfl
@[simp] theorem State.emit_cmdCode (e : Event) (s : State) : (s.emit e).cmdCode = s.cmdCode := rfl
@[simp] theorem State.emit_cmdDur (e : Event) (s : State) : (s.emit e).cmdDur = s.cmdDur := rfl
@[simp] theorem State.emit_nSeg (e : Event) (s : State) : (s.emit e).nSeg = s.nSeg := rfl
@[simp] theorem State.emit_segHi (e : Event) (s : State) : (s.emit e).segHi = s.segHi := rfl
@[simp] theorem State.emit_segLo (e : Event) (s : State) : (s.emit e).segLo = s.segLo := rfl
@[simp] theorem State.emit_segTicks (e : Event) (s : State) : (s.emit e).segTicks = s.segTicks := rfl
@[simp] theorem State.emit_audible (e : Event) (s : State) : (s.emit e).audible = s.audible := rfl
@[simp] theorem State.emit_segIdx (e : Event) (s : State) : (s.emit e).segIdx = s.segIdx := rfl
@[simp] theorem State.emit_history (e : Event) (s : State) : (s.emit e).history = s.history ++ [e] := rfl
@[simp] theorem State.emit_hostProg (e : Event) (s : State) : (s.emit e).hostProg = s.hostProg := rfl
@[simp] theorem State.emit_hostWait (e : Event) (s : State) : (s.emit e).hostWait = s.hostWait := rfl
@[simp] theorem State.emit_schedule (e : Event) (s : State) : (s.emit e).schedule = s.schedule := rfl
@[simp] theorem State.emit_draws (e : Event) (s : State) : (s.emit e).draws = s.draws := rfl

/-! ### State.raise -/

@[simp] theorem State.raise_accHi (code : BitVec 8) (info : Word) (s : State) : (s.raise code info).accHi = s.accHi := rfl
@[simp] theorem State.raise_accLo (code : BitVec 8) (info : Word) (s : State) : (s.raise code info).accLo = s.accLo := rfl
@[simp] theorem State.raise_stepHi (code : BitVec 8) (info : Word) (s : State) : (s.raise code info).stepHi = s.stepHi := rfl
@[simp] theorem State.raise_stepLo (code : BitVec 8) (info : Word) (s : State) : (s.raise code info).stepLo = s.stepLo := rfl
@[simp] theorem State.raise_duty (code : BitVec 8) (info : Word) (s : State) : (s.raise code info).duty = s.duty := rfl
@[simp] theorem State.raise_tickCnt (code : BitVec 8) (info : Word) (s : State) : (s.raise code info).tickCnt = s.tickCnt := rfl
@[simp] theorem State.raise_timerOn (code : BitVec 8) (info : Word) (s : State) : (s.raise code info).timerOn = s.timerOn := rfl
@[simp] theorem State.raise_pinOut (code : BitVec 8) (info : Word) (s : State) : (s.raise code info).pinOut = s.pinOut := rfl
@[simp] theorem State.raise_gateEn (code : BitVec 8) (info : Word) (s : State) : (s.raise code info).gateEn = s.gateEn := rfl
@[simp] theorem State.raise_dialInhibit (code : BitVec 8) (info : Word) (s : State) : (s.raise code info).dialInhibit = s.dialInhibit := rfl
@[simp] theorem State.raise_fault (code : BitVec 8) (info : Word) (s : State) : (s.raise code info).fault = some ⟨code, info⟩ := rfl
@[simp] theorem State.raise_ctrlPc (code : BitVec 8) (info : Word) (s : State) : (s.raise code info).ctrlPc = s.ctrlPc := rfl
@[simp] theorem State.raise_cmdCode (code : BitVec 8) (info : Word) (s : State) : (s.raise code info).cmdCode = s.cmdCode := rfl
@[simp] theorem State.raise_cmdDur (code : BitVec 8) (info : Word) (s : State) : (s.raise code info).cmdDur = s.cmdDur := rfl
@[simp] theorem State.raise_nSeg (code : BitVec 8) (info : Word) (s : State) : (s.raise code info).nSeg = s.nSeg := rfl
@[simp] theorem State.raise_segHi (code : BitVec 8) (info : Word) (s : State) : (s.raise code info).segHi = s.segHi := rfl
@[simp] theorem State.raise_segLo (code : BitVec 8) (info : Word) (s : State) : (s.raise code info).segLo = s.segLo := rfl
@[simp] theorem State.raise_segTicks (code : BitVec 8) (info : Word) (s : State) : (s.raise code info).segTicks = s.segTicks := rfl
@[simp] theorem State.raise_audible (code : BitVec 8) (info : Word) (s : State) : (s.raise code info).audible = s.audible := rfl
@[simp] theorem State.raise_segIdx (code : BitVec 8) (info : Word) (s : State) : (s.raise code info).segIdx = s.segIdx := rfl
@[simp] theorem State.raise_history (code : BitVec 8) (info : Word) (s : State) : (s.raise code info).history = s.history ++ [.fault code info] := rfl
@[simp] theorem State.raise_hostProg (code : BitVec 8) (info : Word) (s : State) : (s.raise code info).hostProg = s.hostProg := rfl
@[simp] theorem State.raise_hostWait (code : BitVec 8) (info : Word) (s : State) : (s.raise code info).hostWait = s.hostWait := rfl
@[simp] theorem State.raise_schedule (code : BitVec 8) (info : Word) (s : State) : (s.raise code info).schedule = s.schedule := rfl
@[simp] theorem State.raise_draws (code : BitVec 8) (info : Word) (s : State) : (s.raise code info).draws = s.draws := rfl

/-! ### State.complete -/

@[simp] theorem State.complete_accHi (w : Word) (s : State) : (s.complete w).accHi = s.accHi := rfl
@[simp] theorem State.complete_accLo (w : Word) (s : State) : (s.complete w).accLo = s.accLo := rfl
@[simp] theorem State.complete_stepHi (w : Word) (s : State) : (s.complete w).stepHi = s.stepHi := rfl
@[simp] theorem State.complete_stepLo (w : Word) (s : State) : (s.complete w).stepLo = s.stepLo := rfl
@[simp] theorem State.complete_duty (w : Word) (s : State) : (s.complete w).duty = s.duty := rfl
@[simp] theorem State.complete_tickCnt (w : Word) (s : State) : (s.complete w).tickCnt = s.tickCnt := rfl
@[simp] theorem State.complete_timerOn (w : Word) (s : State) : (s.complete w).timerOn = s.timerOn := rfl
@[simp] theorem State.complete_pinOut (w : Word) (s : State) : (s.complete w).pinOut = s.pinOut := rfl
@[simp] theorem State.complete_gateEn (w : Word) (s : State) : (s.complete w).gateEn = s.gateEn := rfl
@[simp] theorem State.complete_dialInhibit (w : Word) (s : State) : (s.complete w).dialInhibit = s.dialInhibit := rfl
@[simp] theorem State.complete_fault (w : Word) (s : State) : (s.complete w).fault = s.fault := rfl
@[simp] theorem State.complete_ctrlPc (w : Word) (s : State) : (s.complete w).ctrlPc = s.ctrlPc := rfl
@[simp] theorem State.complete_cmdCode (w : Word) (s : State) : (s.complete w).cmdCode = s.cmdCode := rfl
@[simp] theorem State.complete_cmdDur (w : Word) (s : State) : (s.complete w).cmdDur = s.cmdDur := rfl
@[simp] theorem State.complete_nSeg (w : Word) (s : State) : (s.complete w).nSeg = s.nSeg := rfl
@[simp] theorem State.complete_segHi (w : Word) (s : State) : (s.complete w).segHi = s.segHi := rfl
@[simp] theorem State.complete_segLo (w : Word) (s : State) : (s.complete w).segLo = s.segLo := rfl
@[simp] theorem State.complete_segTicks (w : Word) (s : State) : (s.complete w).segTicks = s.segTicks := rfl
@[simp] theorem State.complete_audible (w : Word) (s : State) : (s.complete w).audible = s.audible := rfl
@[simp] theorem State.complete_segIdx (w : Word) (s : State) : (s.complete w).segIdx = s.segIdx := rfl
@[simp] theorem State.complete_history (w : Word) (s : State) : (s.complete w).history = s.history ++ [.done w] := rfl
@[simp] theorem State.complete_hostProg (w : Word) (s : State) : (s.complete w).hostProg = s.hostProg := rfl
@[simp] theorem State.complete_hostWait (w : Word) (s : State) : (s.complete w).hostWait = if s.hostWait = some w then none else s.hostWait := rfl
@[simp] theorem State.complete_schedule (w : Word) (s : State) : (s.complete w).schedule = s.schedule := rfl
@[simp] theorem State.complete_draws (w : Word) (s : State) : (s.complete w).draws = s.draws := rfl

/-! ### State.goto -/

@[simp] theorem State.goto_accHi (pc : CtrlPc) (s : State) : (s.goto pc).accHi = s.accHi := rfl
@[simp] theorem State.goto_accLo (pc : CtrlPc) (s : State) : (s.goto pc).accLo = s.accLo := rfl
@[simp] theorem State.goto_stepHi (pc : CtrlPc) (s : State) : (s.goto pc).stepHi = s.stepHi := rfl
@[simp] theorem State.goto_stepLo (pc : CtrlPc) (s : State) : (s.goto pc).stepLo = s.stepLo := rfl
@[simp] theorem State.goto_duty (pc : CtrlPc) (s : State) : (s.goto pc).duty = s.duty := rfl
@[simp] theorem State.goto_tickCnt (pc : CtrlPc) (s : State) : (s.goto pc).tickCnt = s.tickCnt := rfl
@[simp] theorem State.goto_timerOn (pc : CtrlPc) (s : State) : (s.goto pc).timerOn = s.timerOn := rfl
@[simp] theorem State.goto_pinOut (pc : CtrlPc) (s : State) : (s.goto pc).pinOut = s.pinOut := rfl
@[simp] theorem State.goto_gateEn (pc : CtrlPc) (s : State) : (s.goto pc).gateEn = s.gateEn := rfl
@[simp] theorem State.goto_dialInhibit (pc : CtrlPc) (s : State) : (s.goto pc).dialInhibit = s.dialInhibit := rfl
@[simp] theorem State.goto_fault (pc : CtrlPc) (s : State) : (s.goto pc).fault = s.fault := rfl
@[simp] theorem State.goto_ctrlPc (pc : CtrlPc) (s : State) : (s.goto pc).ctrlPc = pc := rfl
@[simp] theorem State.goto_cmdCode (pc : CtrlPc) (s : State) : (s.goto pc).cmdCode = s.cmdCode := rfl
@[simp] theorem State.goto_cmdDur (pc : CtrlPc) (s : State) : (s.goto pc).cmdDur = s.cmdDur := rfl
@[simp] theorem State.goto_nSeg (pc : CtrlPc) (s : State) : (s.goto pc).nSeg = s.nSeg := rfl
@[simp] theorem State.goto_segHi (pc : CtrlPc) (s : State) : (s.goto pc).segHi = s.segHi := rfl
@[simp] theorem State.goto_segLo (pc : CtrlPc) (s : State) : (s.goto pc).segLo = s.segLo := rfl
@[simp] theorem State.goto_segTicks (pc : CtrlPc) (s : State) : (s.goto pc).segTicks = s.segTicks := rfl
@[simp] theorem State.goto_audible (pc : CtrlPc) (s : State) : (s.goto pc).audible = s.audible := rfl
@[simp] theorem State.goto_segIdx (pc : CtrlPc) (s : State) : (s.goto pc).segIdx = s.segIdx := rfl
@[simp] theorem State.goto_history (pc : CtrlPc) (s : State) : (s.goto pc).history = s.history := rfl
@[simp] theorem State.goto_hostProg (pc : CtrlPc) (s : State) : (s.goto pc).hostProg = s.hostProg := rfl
@[simp] theorem State.goto_hostWait (pc : CtrlPc) (s : State) : (s.goto pc).hostWait = s.hostWait := rfl
@[simp] theorem State.goto_schedule (pc : CtrlPc) (s : State) : (s.goto pc).schedule = s.schedule := rfl
@[simp] theorem State.goto_draws (pc : CtrlPc) (s : State) : (s.goto pc).draws = s.draws := rfl

/-! ### State.latchTone -/

@[simp] theorem State.latchTone_accHi (t : Tone) (n : Nat) (s : State) : (s.latchTone t n).accHi = s.accHi := rfl
@[simp] theorem State.latchTone_accLo (t : Tone) (n : Nat) (s : State) : (s.latchTone t n).accLo = s.accLo := rfl
@[simp] theorem State.latchTone_stepHi (t : Tone) (n : Nat) (s : State) : (s.latchTone t n).stepHi = s.stepHi := rfl
@[simp] theorem State.latchTone_stepLo (t : Tone) (n : Nat) (s : State) : (s.latchTone t n).stepLo = s.stepLo := rfl
@[simp] theorem State.latchTone_duty (t : Tone) (n : Nat) (s : State) : (s.latchTone t n).duty = s.duty := rfl
@[simp] theorem State.latchTone_tickCnt (t : Tone) (n : Nat) (s : State) : (s.latchTone t n).tickCnt = s.tickCnt := rfl
@[simp] theorem State.latchTone_timerOn (t : Tone) (n : Nat) (s : State) : (s.latchTone t n).timerOn = s.timerOn := rfl
@[simp] theorem State.latchTone_pinOut (t : Tone) (n : Nat) (s : State) : (s.latchTone t n).pinOut = s.pinOut := rfl
@[simp] theorem State.latchTone_gateEn (t : Tone) (n : Nat) (s : State) : (s.latchTone t n).gateEn = s.gateEn := rfl
@[simp] theorem State.latchTone_dialInhibit (t : Tone) (n : Nat) (s : State) : (s.latchTone t n).dialInhibit = s.dialInhibit := rfl
@[simp] theorem State.latchTone_fault (t : Tone) (n : Nat) (s : State) : (s.latchTone t n).fault = s.fault := rfl
@[simp] theorem State.latchTone_ctrlPc (t : Tone) (n : Nat) (s : State) : (s.latchTone t n).ctrlPc = s.ctrlPc := rfl
@[simp] theorem State.latchTone_cmdCode (t : Tone) (n : Nat) (s : State) : (s.latchTone t n).cmdCode = s.cmdCode := rfl
@[simp] theorem State.latchTone_cmdDur (t : Tone) (n : Nat) (s : State) : (s.latchTone t n).cmdDur = s.cmdDur := rfl
@[simp] theorem State.latchTone_nSeg (t : Tone) (n : Nat) (s : State) : (s.latchTone t n).nSeg = noteCount t.notes := rfl
@[simp] theorem State.latchTone_segHi (t : Tone) (n : Nat) (s : State) : (s.latchTone t n).segHi = writeNotes s.segHi t.notes := rfl
@[simp] theorem State.latchTone_segLo (t : Tone) (n : Nat) (s : State) : (s.latchTone t n).segLo = t.lo := rfl
@[simp] theorem State.latchTone_segTicks (t : Tone) (n : Nat) (s : State) : (s.latchTone t n).segTicks = BitVec.ofNat 32 n := rfl
@[simp] theorem State.latchTone_audible (t : Tone) (n : Nat) (s : State) : (s.latchTone t n).audible = t.audible := rfl
@[simp] theorem State.latchTone_segIdx (t : Tone) (n : Nat) (s : State) : (s.latchTone t n).segIdx = 0 := rfl
@[simp] theorem State.latchTone_history (t : Tone) (n : Nat) (s : State) : (s.latchTone t n).history = s.history := rfl
@[simp] theorem State.latchTone_hostProg (t : Tone) (n : Nat) (s : State) : (s.latchTone t n).hostProg = s.hostProg := rfl
@[simp] theorem State.latchTone_hostWait (t : Tone) (n : Nat) (s : State) : (s.latchTone t n).hostWait = s.hostWait := rfl
@[simp] theorem State.latchTone_schedule (t : Tone) (n : Nat) (s : State) : (s.latchTone t n).schedule = s.schedule := rfl
@[simp] theorem State.latchTone_draws (t : Tone) (n : Nat) (s : State) : (s.latchTone t n).draws = s.draws := rfl

/-! ### State.placeWord -/

@[simp] theorem State.placeWord_accHi (w : Word) (s : State) : (s.placeWord w).accHi = s.accHi := rfl
@[simp] theorem State.placeWord_accLo (w : Word) (s : State) : (s.placeWord w).accLo = s.accLo := rfl
@[simp] theorem State.placeWord_stepHi (w : Word) (s : State) : (s.placeWord w).stepHi = s.stepHi := rfl
@[simp] theorem State.placeWord_stepLo (w : Word) (s : State) : (s.placeWord w).stepLo = s.stepLo := rfl
@[simp] theorem State.placeWord_duty (w : Word) (s : State) : (s.placeWord w).duty = s.duty := rfl
@[simp] theorem State.placeWord_tickCnt (w : Word) (s : State) : (s.placeWord w).tickCnt = s.tickCnt := rfl
@[simp] theorem State.placeWord_timerOn (w : Word) (s : State) : (s.placeWord w).timerOn = s.timerOn := rfl
@[simp] theorem State.placeWord_pinOut (w : Word) (s : State) : (s.placeWord w).pinOut = s.pinOut := rfl
@[simp] theorem State.placeWord_gateEn (w : Word) (s : State) : (s.placeWord w).gateEn = s.gateEn := rfl
@[simp] theorem State.placeWord_dialInhibit (w : Word) (s : State) : (s.placeWord w).dialInhibit = s.dialInhibit := rfl
@[simp] theorem State.placeWord_fault (w : Word) (s : State) : (s.placeWord w).fault = none := rfl
@[simp] theorem State.placeWord_ctrlPc (w : Word) (s : State) : (s.placeWord w).ctrlPc = s.ctrlPc := rfl
@[simp] theorem State.placeWord_cmdCode (w : Word) (s : State) : (s.placeWord w).cmdCode = s.cmdCode := rfl
@[simp] theorem State.placeWord_cmdDur (w : Word) (s : State) : (s.placeWord w).cmdDur = s.cmdDur := rfl
@[simp] theorem State.placeWord_nSeg (w : Word) (s : State) : (s.placeWord w).nSeg = s.nSeg := rfl
@[simp] theorem State.placeWord_segHi (w : Word) (s : State) : (s.placeWord w).segHi = s.segHi := rfl
@[simp] theorem State.placeWord_segLo (w : Word) (s : State) : (s.placeWord w).segLo = s.segLo := rfl
@[simp] theorem State.placeWord_segTicks (w : Word) (s : State) : (s.placeWord w).segTicks = s.segTicks := rfl
@[simp] theorem State.placeWord_audible (w : Word) (s : State) : (s.placeWord w).audible = s.audible := rfl
@[simp] theorem State.placeWord_segIdx (w : Word) (s : State) : (s.placeWord w).segIdx = s.segIdx := rfl
@[simp] theorem State.placeWord_history (w : Word) (s : State) : (s.placeWord w).history = s.history := rfl
@[simp] theorem State.placeWord_hostProg (w : Word) (s : State) : (s.placeWord w).hostProg = w :: s.hostProg := rfl
@[simp] theorem State.placeWord_hostWait (w : Word) (s : State) : (s.placeWord w).hostWait = none := rfl
@[simp] theorem State.placeWord_schedule (w : Word) (s : State) : (s.placeWord w).schedule = .host :: s.schedule := rfl
@[simp] theorem State.placeWord_draws (w : Word) (s : State) : (s.placeWord w).draws = s.draws := rfl

/-! ### tick -/

@[simp] theorem tick_accHi (c : Config) (s : State) : (tick c s).accHi = s.nextAccHi := rfl
@[simp] theorem tick_accLo (c : Config) (s : State) : (tick c s).accLo = s.nextAccLo := rfl
@[simp] theorem tick_stepHi (c : Config) (s : State) : (tick c s).stepHi = s.stepHi := rfl
@[simp] theorem tick_stepLo (c : Config) (s : State) : (tick c s).stepLo = s.stepLo := rfl
@[simp] theorem tick_duty (c : Config) (s : State) : (tick c s).duty = s.tickDuty c := rfl
@[simp] theorem tick_tickCnt (c : Config) (s : State) : (tick c s).tickCnt = s.tickCnt + 1#32 := rfl
@[simp] theorem tick_timerOn (c : Config) (s : State) : (tick c s).timerOn = s.timerOn := rfl
@[simp] theorem tick_pinOut (c : Config) (s : State) : (tick c s).pinOut = s.pinOut := rfl
@[simp] theorem tick_gateEn (c : Config) (s : State) : (tick c s).gateEn = s.gateEn := rfl
@[simp] theorem tick_dialInhibit (c : Config) (s : State) : (tick c s).dialInhibit = s.dialInhibit := rfl
@[simp] theorem tick_fault (c : Config) (s : State) : (tick c s).fault = s.fault := rfl
@[simp] theorem tick_ctrlPc (c : Config) (s : State) : (tick c s).ctrlPc = s.ctrlPc := rfl
@[simp] theorem tick_cmdCode (c : Config) (s : State) : (tick c s).cmdCode = s.cmdCode := rfl
@[simp] theorem tick_cmdDur (c : Config) (s : State) : (tick c s).cmdDur = s.cmdDur := rfl
@[simp] theorem tick_nSeg (c : Config) (s : State) : (tick c s).nSeg = s.nSeg := rfl
@[simp] theorem tick_segHi (c : Config) (s : State) : (tick c s).segHi = s.segHi := rfl
@[simp] theorem tick_segLo (c : Config) (s : State) : (tick c s).segLo = s.segLo := rfl
@[simp] theorem tick_segTicks (c : Config) (s : State) : (tick c s).segTicks = s.segTicks := rfl
@[simp] theorem tick_audible (c : Config) (s : State) : (tick c s).audible = s.audible := rfl
@[simp] theorem tick_segIdx (c : Config) (s : State) : (tick c s).segIdx = s.segIdx := rfl
@[simp] theorem tick_history (c : Config) (s : State) : (tick c s).history = s.history ++ [.sample (s.tickDuty c) s.gateEn] := rfl
@[simp] theorem tick_hostProg (c : Config) (s : State) : (tick c s).hostProg = s.hostProg := rfl
@[simp] theorem tick_hostWait (c : Config) (s : State) : (tick c s).hostWait = s.hostWait := rfl
@[simp] theorem tick_schedule (c : Config) (s : State) : (tick c s).schedule = s.schedule := rfl
@[simp] theorem tick_draws (c : Config) (s : State) : (tick c s).draws = s.draws := rfl

/-! ### gateEnable -/

@[simp] theorem gateEnable_accHi (s : State) : (gateEnable s).accHi = s.accHi := rfl
@[simp] theorem gateEnable_accLo (s : State) : (gateEnable s).accLo = s.accLo := rfl
@[simp] theorem gateEnable_stepHi (s : State) : (gateEnable s).stepHi = s.stepHi := rfl
@[simp] theorem gateEnable_stepLo (s : State) : (gateEnable s).stepLo = s.stepLo := rfl
@[simp] theorem gateEnable_duty (s : State) : (gateEnable s).duty = s.duty := rfl
@[simp] theorem gateEnable_tickCnt (s : State) : (gateEnable s).tickCnt = s.tickCnt := rfl
@[simp] theorem gateEnable_timerOn (s : State) : (gateEnable s).timerOn = s.timerOn := rfl
@[simp] theorem gateEnable_pinOut (s : State) : (gateEnable s).pinOut = s.pinOut := rfl
@[simp] theorem gateEnable_gateEn (s : State) : (gateEnable s).gateEn = true := rfl
@[simp] theorem gateEnable_dialInhibit (s : State) : (gateEnable s).dialInhibit = s.dialInhibit := rfl
@[simp] theorem gateEnable_fault (s : State) : (gateEnable s).fault = s.fault := rfl
@[simp] theorem gateEnable_ctrlPc (s : State) : (gateEnable s).ctrlPc = s.ctrlPc := rfl
@[simp] theorem gateEnable_cmdCode (s : State) : (gateEnable s).cmdCode = s.cmdCode := rfl
@[simp] theorem gateEnable_cmdDur (s : State) : (gateEnable s).cmdDur = s.cmdDur := rfl
@[simp] theorem gateEnable_nSeg (s : State) : (gateEnable s).nSeg = s.nSeg := rfl
@[simp] theorem gateEnable_segHi (s : State) : (gateEnable s).segHi = s.segHi := rfl
@[simp] theorem gateEnable_segLo (s : State) : (gateEnable s).segLo = s.segLo := rfl
@[simp] theorem gateEnable_segTicks (s : State) : (gateEnable s).segTicks = s.segTicks := rfl
@[simp] theorem gateEnable_audible (s : State) : (gateEnable s).audible = s.audible := rfl
@[simp] theorem gateEnable_segIdx (s : State) : (gateEnable s).segIdx = s.segIdx := rfl
@[simp] theorem gateEnable_history (s : State) : (gateEnable s).history = s.history ++ [.gate true] := rfl
@[simp] theorem gateEnable_hostProg (s : State) : (gateEnable s).hostProg = s.hostProg := rfl
@[simp] theorem gateEnable_hostWait (s : State) : (gateEnable s).hostWait = s.hostWait := rfl
@[simp] theorem gateEnable_schedule (s : State) : (gateEnable s).schedule = s.schedule := rfl
@[simp] theorem gateEnable_draws (s : State) : (gateEnable s).draws = s.draws := rfl

/-! ### gateDisable -/

@[simp] theorem gateDisable_accHi (s : State) : (gateDisable s).accHi = s.accHi := rfl
@[simp] theorem gateDisable_accLo (s : State) : (gateDisable s).accLo = s.accLo := rfl
@[simp] theorem gateDisable_stepHi (s : State) : (gateDisable s).stepHi = s.stepHi := rfl
@[simp] theorem gateDisable_stepLo (s : State) : (gateDisable s).stepLo = s.stepLo := rfl
@[simp] theorem gateDisable_duty (s : State) : (gateDisable s).duty = 0#8 := rfl
@[simp] theorem gateDisable_tickCnt (s : State) : (gateDisable s).tickCnt = s.tickCnt := rfl
@[simp] theorem gateDisable_timerOn (s : State) : (gateDisable s).timerOn = s.timerOn := rfl
@[simp] theorem gateDisable_pinOut (s : State) : (gateDisable s).pinOut = s.pinOut := rfl
@[simp] theorem gateDisable_gateEn (s : State) : (gateDisable s).gateEn = false := rfl
@[simp] theorem gateDisable_dialInhibit (s : State) : (gateDisable s).dialInhibit = s.dialInhibit := rfl
@[simp] theorem gateDisable_fault (s : State) : (gateDisable s).fault = s.fault := rfl
@[simp] theorem gateDisable_ctrlPc (s : State) : (gateDisable s).ctrlPc = s.ctrlPc := rfl
@[simp] theorem gateDisable_cmdCode (s : State) : (gateDisable s).cmdCode = s.cmdCode := rfl
@[simp] theorem gateDisable_cmdDur (s : State) : (gateDisable s).cmdDur = s.cmdDur := rfl
@[simp] theorem gateDisable_nSeg (s : State) : (gateDisable s).nSeg = s.nSeg := rfl
@[simp] theorem gateDisable_segHi (s : State) : (gateDisable s).segHi = s.segHi := rfl
@[simp] theorem gateDisable_segLo (s : State) : (gateDisable s).segLo = s.segLo := rfl
@[simp] theorem gateDisable_segTicks (s : State) : (gateDisable s).segTicks = s.segTicks := rfl
@[simp] theorem gateDisable_audible (s : State) : (gateDisable s).audible = s.audible := rfl
@[simp] theorem gateDisable_segIdx (s : State) : (gateDisable s).segIdx = s.segIdx := rfl
@[simp] theorem gateDisable_history (s : State) : (gateDisable s).history = s.history ++ [.gate false] := rfl
@[simp] theorem gateDisable_hostProg (s : State) : (gateDisable s).hostProg = s.hostProg := rfl
@[simp] theorem gateDisable_hostWait (s : State) : (gateDisable s).hostWait = s.hostWait := rfl
@[simp] theorem gateDisable_schedule (s : State) : (gateDisable s).schedule = s.schedule := rfl
@[simp] theorem gateDisable_draws (s : State) : (gateDisable s).draws = s.draws := rfl

end Sys2Proof.Machine
end

