-- ==== Sys2Proof/Laws/Ops.lean ====
section
/-! SUPPORT. What each shared operation can do, said once: ISSUE, the host's word, the choice of the next agent, one step. -/

namespace Sys2Proof.Machine

/-! ### ISSUE -/

/-- In a faulted state nothing is issued. -/
theorem issue_halted {w : Word} {p : State → State} {s : State} {f : FaultRecord} (h : s.fault = some f) :
    issue w p s = .fault (.halted f.code f.info) := by
  simp [issue, h]

/-- A word that arrives while the sequencer is busy. -/
theorem issue_busy {w : Word} {p : State → State} {s : State} (h : s.fault = none) (hb : s.ctrlPc ≠ .idle) :
    issue w p s = .next ((s.emit (.cmd w)).raise busyFault w) := by
  simp [issue, h, State.busy, hb]

/-- A word that is accepted at IDLE. -/
theorem issue_idle {w : Word} {p : State → State} {s : State} (h : s.fault = none) (hb : s.ctrlPc = .idle) :
    issue w p s = .next (p (s.emit (.cmd w))) := by
  simp [issue, h, State.busy, hb]

/-- Everything ISSUE can answer with. -/
theorem issue_cases {w : Word} {p : State → State} {s t : State} (h : issue w p s = .next t) :
    s.fault = none ∧
      ((s.ctrlPc ≠ .idle ∧ t = (s.emit (.cmd w)).raise busyFault w) ∨
        (s.ctrlPc = .idle ∧ t = p (s.emit (.cmd w)))) := by
  cases hf : s.fault with
  | some f => simp [issue_halted hf] at h
  | none =>
    by_cases hb : s.ctrlPc = .idle
    · rw [issue_idle hf hb] at h
      exact ⟨rfl, .inr ⟨hb, (Host.Outcome.next.inj h).symm⟩⟩
    · rw [issue_busy hf hb] at h
      exact ⟨rfl, .inl ⟨hb, (Host.Outcome.next.inj h).symm⟩⟩

/-! ### PLAY -/

/-- Everything the body of PLAY can do to the state. -/
theorem performPlay_cases (code : Code) (dur : Duration) (s : State) :
    (s.timerOn = false ∧ performPlay code dur s = s.raise notInitialized (encode (.play code dur))) ∨
      (s.timerOn = true ∧ dur = 0#16 ∧
        performPlay code dur s =
          ({ s with cmdCode := code, cmdDur := dur }).complete (encode (.play code dur))) ∨
      (s.timerOn = true ∧ dur ≠ 0#16 ∧
        performPlay code dur s = ({ s with cmdCode := code, cmdDur := dur }).goto .mask) := by
  cases ht : s.timerOn with
  | false => simp [performPlay, ht]
  | true => by_cases hd : dur = 0#16 <;> simp [performPlay, ht, hd]

/-! ### The next agent -/

/-- The agent that a schedule gives is enabled. -/
theorem firstEnabled_enabled {s : State} {l rest : List Agent} {a : Agent}
    (h : firstEnabled s l = some (a, rest)) : s.enabled a = true := by
  induction l with
  | nil => simp [firstEnabled] at h
  | cons b bs ih =>
    by_cases hb : s.enabled b = true
    · simp only [firstEnabled, hb, if_true, Option.some.injEq, Prod.mk.injEq] at h
      exact h.1 ▸ hb
    · exact ih (by simpa [firstEnabled, hb] using h)

/-- An enabled agent at the head of the schedule moves next. -/
theorem chooseAgent_head {s : State} {a : Agent} {rest : List Agent} (hs : s.schedule = a :: rest)
    (ha : s.enabled a = true) : chooseAgent s = some (a, { s with schedule := rest }) := by
  simp [chooseAgent, hs, firstEnabled, ha]

/-- What a choice of the next agent can be: an enabled agent, and a state that differs only in the model's own fields. -/
theorem chooseAgent_cases {s t : State} {a : Agent} (h : chooseAgent s = some (a, t)) :
    s.enabled a = true ∧ ∃ sch n, t = { s with schedule := sch, draws := n } := by
  unfold chooseAgent at h
  cases hf : firstEnabled s s.schedule with
  | some p =>
    obtain ⟨b, rest⟩ := p
    simp only [hf, Option.some.injEq, Prod.mk.injEq] at h
    obtain ⟨rfl, rfl⟩ := h
    exact ⟨firstEnabled_enabled hf, rest, s.draws, rfl⟩
  | none =>
    have hmem : ∀ x ∈ enabledAgents s, s.enabled x = true := fun x hx => (List.mem_filter.mp hx).2
    simp only [hf] at h
    split at h
    · cases h
    · next b hb =>
      simp only [Option.some.injEq, Prod.mk.injEq] at h
      obtain ⟨rfl, rfl⟩ := h
      exact ⟨hmem _ (by simp [hb]), [], s.draws, rfl⟩
    · next b d more hb =>
      simp only [Option.some.injEq, Prod.mk.injEq] at h
      obtain ⟨rfl, rfl⟩ := h
      refine ⟨hmem _ ?_, [], s.draws + 1, rfl⟩
      rw [hb]
      have hlt : Config.freeChoice s.draws % (more.length + 2) < (b :: d :: more).length := by
        simpa using Nat.mod_lt (Config.freeChoice s.draws) (Nat.succ_pos (more.length + 1))
      rw [List.getD_eq_getElem _ _ hlt]
      exact List.getElem_mem hlt

/-- Nobody is chosen only when nobody is enabled. -/
theorem chooseAgent_none {s : State} (h : chooseAgent s = none) (a : Agent) : s.enabled a = false := by
  unfold chooseAgent at h
  cases hf : firstEnabled s s.schedule with
  | some p => simp [hf] at h
  | none =>
    simp only [hf] at h
    split at h
    · next hn =>
      have hm : a ∈ [Agent.host, Agent.ctrl, Agent.tick] := by cases a <;> simp
      cases he : s.enabled a with
      | false => rfl
      | true => exact absurd (List.mem_filter.mpr ⟨hm, he⟩) (by rw [show List.filter _ _ = [] from hn]; simp)
    · cases h
    · cases h

/-! ### One step -/

/-- Whether an agent is enabled does not depend on the model's own fields. -/
@[simp] theorem enabled_schedule (s : State) (sch : List Agent) (n : Nat) (a : Agent) :
    ({ s with schedule := sch, draws := n } : State).enabled a = s.enabled a := by
  cases a <;> rfl

/-- From a faulted state there is no step. -/
theorem stepWith_halted {c : Config} {s : State} {f : FaultRecord} (h : s.fault = some f) :
    stepWith c s = .fault (.halted f.code f.info) := by
  simp [stepWith, h]

/-- Everything a step can do: the step of one enabled agent, once the choice is taken from the model's own fields. -/
theorem stepWith_cases {c : Config} {s t : State} (h : stepWith c s = .next t) :
    s.fault = none ∧ ∃ a sch n, s.enabled a = true ∧
      agentStep c a { s with schedule := sch, draws := n } = .next t := by
  cases hf : s.fault with
  | some f => simp [stepWith_halted hf] at h
  | none =>
    cases hc : chooseAgent s with
    | none => simp [stepWith, hf, hc] at h
    | some p =>
      obtain ⟨a, u⟩ := p
      obtain ⟨ha, sch, n, rfl⟩ := chooseAgent_cases hc
      exact ⟨rfl, a, sch, n, ha, by simpa [stepWith, hf, hc] using h⟩

/-- An enabled agent at the head of the schedule takes its step. -/
theorem stepWith_head {c : Config} {s : State} {a : Agent} {rest : List Agent} (hf : s.fault = none)
    (hs : s.schedule = a :: rest) (ha : s.enabled a = true) :
    stepWith c s = agentStep c a { s with schedule := rest } := by
  simp [stepWith, hf, chooseAgent_head hs ha]

/-- Everything a HOST step can do: ISSUE of the word it takes. -/
theorem hostStep_cases {s t : State} (h : hostStep s = .next t) :
    ∃ w rest, s.hostProg = w :: rest ∧
      ((∃ i, decode w = .ok i ∧ exec i { s with hostProg := rest, hostWait := some w } = .next t) ∨
        (decode w = .illegal w ∧ issueIllegal w { s with hostProg := rest, hostWait := some w } = .next t)) := by
  cases hp : s.hostProg with
  | nil => simp [hostStep, State.takeWord, hp] at h
  | cons w rest =>
    refine ⟨w, rest, rfl, ?_⟩
    simp only [hostStep, State.takeWord, hp] at h
    cases hd : decode w with
    | ok i => exact .inl ⟨i, rfl, by simpa [hd] using h⟩
    | illegal v =>
      have hv : v = w := by
        unfold decode at hd
        split at hd
        · cases hd
        · split at hd
          · cases hd
          · exact (Decoded.illegal.inj hd).symm
      subst hv
      exact .inr ⟨rfl, by simpa [hd] using h⟩

end Sys2Proof.Machine
end

