-- ==== Sys2Proof/Laws/PerInstr.lean ====
section
/-! SUPPORT. Statements about every command as syntax, one lemma per constructor. -/

namespace Sys2Proof.Laws.TableRow

/-- The word of a command matches its own row of the opcode table, and no other row of it. -/
def Statement (i : Instr) : Prop :=
  opcodeTable.filter (fun r => r.covers (encode i)) = [i.row]

theorem init : Statement .init := by
  unfold Statement
  decide

theorem play (code : Code) (dur : Duration) : Statement (.play code dur) := by
  have hw : encode (.play code dur) ≠ 0x01000000#32 := fun h => by
    have := congrArg opField h
    rw [show (0x01000000#32 : Word) = packWord 0x01#8 0#8 0#16 by decide] at this
    simp [encode] at this
  simp [Statement, opcodeTable, initRow_covers, playRow_covers, hw, Instr.row]
  simp [encode]

end Sys2Proof.Laws.TableRow
end

