-- ==== Sys2Proof/Laws/Runs.lean ====
section
/-! SUPPORT. Executions and runs of `stepWith`: whatever an execution does, some schedule makes the machine do. -/

namespace Sys2Proof.Machine

/-- The command steps neither read nor write the schedule. -/
theorem issue_schedule (w : Word) (p : State → State) (l : List Agent) {s t : State}
    (hp : ∀ u : State, p { u with schedule := l } = { p u with schedule := l }) (h : issue w p s = .next t) :
    issue w p { s with schedule := l } = .next { t with schedule := l } := by
  obtain ⟨hf, ⟨hb, rfl⟩ | ⟨hb, rfl⟩⟩ := issue_cases h
  · exact issue_busy (s := { s with schedule := l }) hf hb
  · rw [issue_idle (s := { s with schedule := l }) hf hb]
    exact congrArg Host.Outcome.next (hp (s.emit (.cmd w)))

theorem performPlay_schedule (code : Code) (dur : Duration) (l : List Agent) (u : State) :
    performPlay code dur { u with schedule := l } = { performPlay code dur u with schedule := l } := by
  simp only [performPlay]
  split
  · rfl
  · split <;> rfl

theorem exec_schedule (i : Instr) (l : List Agent) {s t : State} (h : exec i s = .next t) :
    exec i { s with schedule := l } = .next { t with schedule := l } := by
  cases i with
  | init => exact issue_schedule _ _ l (fun _ => rfl) h
  | play code dur => exact issue_schedule _ _ l (performPlay_schedule code dur l) h

theorem ctrlStep_schedule (c : Config) (l : List Agent) (s : State) :
    ctrlStep c { s with schedule := l } = { ctrlStep c s with schedule := l } := by
  cases hp : s.ctrlPc <;> simp only [ctrlStep, hp] <;> first | rfl | (simp only [gateOn, wait]; split <;> rfl)

/-- No agent's step reads the schedule, and none writes it. -/
theorem agentStep_schedule (c : Config) (a : Agent) (l : List Agent) {s t : State} (h : agentStep c a s = .next t) :
    agentStep c a { s with schedule := l } = .next { t with schedule := l } := by
  cases a with
  | ctrl => exact congrArg Host.Outcome.next ((ctrlStep_schedule c l s).trans (by cases h; rfl))
  | tick => cases h; rfl
  | host =>
    obtain ⟨w, rest, hw, ⟨i, hd, hi⟩ | ⟨hd, hi⟩⟩ := hostStep_cases h
    · simp only [agentStep, hostStep, State.takeWord, hw, hd]
      exact exec_schedule i l hi
    · simp only [agentStep, hostStep, State.takeWord, hw, hd]
      exact issue_schedule _ _ l (fun _ => rfl) hi

/-- A run of `k + m` steps is a run of `k` and then of `m`. -/
theorem runWith_add {c : Config} {k m : Nat} {s u : State} (h : runWith c k s = .next u) :
    runWith c (k + m) s = runWith c m u := by
  induction k generalizing s with
  | zero => cases h; rw [Nat.zero_add]
  | succ k ih =>
    rw [Nat.add_right_comm]
    simp only [runWith] at h ⊢
    cases hs : stepWith c s with
    | next v => rw [hs] at h; exact ih h
    | fault r => rw [hs] at h; cases h
    | refused r => rw [hs] at h; cases h

/-- The first `k` steps of an execution are a run of the machine under the schedule of their agents. -/
theorem Execution.run {c : Config} (e : Execution c) (k : Nat) (h : ∀ n < k, e.mover n ≠ none) :
    ∃ sch : List Agent, ∀ tail,
      runWith c k { e.state 0 with schedule := sch ++ tail } = .next { e.state k with schedule := tail } := by
  induction k with
  | zero => exact ⟨[], fun _ => rfl⟩
  | succ k ih =>
    obtain ⟨sch, hr⟩ := ih fun n hn => h n (Nat.lt_succ_of_lt hn)
    obtain ⟨a, ha⟩ := Option.ne_none_iff_exists'.mp (h k (Nat.lt_succ_self k))
    obtain ⟨hen, hst⟩ := e.moves k a ha
    refine ⟨sch ++ [a], fun tail => ?_⟩
    have hf : (e.state k).fault = none := by
      cases a <;> simp [State.enabled] at hen <;> exact hen.1
    rw [List.append_assoc, runWith_add (hr ([a] ++ tail))]
    have := stepWith_head (c := c) (s := { e.state k with schedule := a :: tail }) hf rfl (by cases a <;> exact hen)
    simp only [runWith, List.singleton_append, this]
    rw [agentStep_schedule c a tail hst]

end Sys2Proof.Machine
end

