-- ==== Sys2Proof/Tests/Slice0.lean ====
section
/-! SUPPORT. Tests. Every expected value is taken from the spec: the worked examples and vectors of spec/95_test_vectors.md
(named by their ids), or the encodings of 30_encoding.md. The last part shows, for each statement that has hypotheses, a
state and operands that meet all of them. -/

open Sys2Proof Sys2Proof.Machine

namespace Sys2Proof.Tests

/-! ### The test configuration of spec/95_test_vectors.md section 1 -/

def sineFirst : List Nat :=
  [64, 67, 70, 73, 76, 79, 82, 85, 88, 91, 94, 96, 99, 102, 104, 106] ++
  [109, 111, 113, 115, 116, 118, 120, 121, 122, 123, 124, 125, 126, 126, 127, 127] ++
  [127, 127, 127, 126, 126, 125, 124, 123, 122, 121, 120, 118, 116, 115, 113, 111] ++
  [109, 106, 104, 102, 99, 96, 94, 91, 88, 85, 82, 79, 76, 73, 70, 67]

def sineSecond : List Nat :=
  [64, 61, 58, 55, 52, 49, 46, 43, 40, 37, 34, 32, 29, 26, 24, 22] ++
  [19, 17, 15, 13, 12, 10, 8, 7, 6, 5, 4, 3, 2, 2, 1, 1] ++
  [1, 1, 1, 2, 2, 3, 4, 5, 6, 7, 8, 10, 12, 13, 15, 17] ++
  [19, 22, 24, 26, 29, 32, 34, 37, 40, 43, 46, 49, 52, 55, 58, 61]

/-- Section 1's parameters with a given TICKS_PER_MS. No vector uses a map entry but 5, nor the informative values. -/
def dataOf (ticksPerMs : Nat) : ConfigData where
  sineTable := sineFirst ++ sineSecond
  freqMap := List.replicate 5 (0, 0) ++ (87, 50) :: List.replicate 6 (0, 0)
  ticksPerMs := ticksPerMs
  codeBeepHigh := -12
  codeBeepLow := -13
  codeChirpDown := -14
  stepBeepHigh := 96
  stepBeepLow := 46
  stepsChirpDown := [51, 34]
  tickRateHz := ⟨15700, by norm_num⟩
  pwmTop := 255

theorem dataOf_wf : (dataOf 16).wf = true ∧ (dataOf 1).wf = true := by decide +kernel

/-- The test configuration, `TICKS_PER_MS = 16`. -/
def conf : Config := ⟨dataOf 16, dataOf_wf.1⟩

/-- The same with `TICKS_PER_MS = 1` (section 6, S12 and S13). -/
def confOne : Config := ⟨dataOf 1, dataOf_wf.2⟩

/-! ### Small states -/

/-- After INIT, at IDLE, with nothing to issue. -/
def idle : State where
  accHi := 0
  accLo := 0
  stepHi := 0
  stepLo := 0
  duty := 0
  tickCnt := 0
  timerOn := true
  pinOut := true
  gateEn := false
  dialInhibit := false
  fault := none
  ctrlPc := .idle
  cmdCode := 0
  cmdDur := 0
  nSeg := .one
  segHi := ⟨0, 0, 0⟩
  segLo := 0
  segTicks := 0
  audible := false
  segIdx := 0
  history := []
  hostProg := []
  hostWait := none
  schedule := []
  draws := 0

/-- Before INIT, at IDLE. -/
def cold : State := { idle with timerOn := false, pinOut := false }

/-- After a fault of code 1. -/
def faulted : State := { idle with fault := some ⟨1#8, 0x03000000#32⟩ }

/-- `PLAY 5, 100` in progress at a given state of the sequencer. -/
def playing (pc : CtrlPc) : State :=
  { idle with
    ctrlPc := pc
    cmdCode := 5
    cmdDur := 100
    nSeg := .one
    segHi := ⟨87, 0, 0⟩
    segLo := 50
    segTicks := 1600
    audible := true
    stepHi := if pc.hiZero then 0 else 87
    stepLo := if pc.loZero then 0 else 50
    gateEn := pc.toneOn
    dialInhibit := pc.dialsOff
    duty := 158
    tickCnt := 4711
    hostWait := some 0x02050064#32 }

/-- `PLAY -11, 300` at a given state, in segment `k`. -/
def chirping (pc : CtrlPc) (k : Fin 3) : State :=
  { playing pc with
    cmdCode := BitVec.ofInt 8 (-11)
    cmdDur := 300
    nSeg := .three
    segHi := ⟨34, 43, 51⟩
    segLo := 0
    segIdx := k
    stepHi := if pc.hiZero then 0 else 34
    stepLo := 0
    hostWait := some 0x02F5012C#32 }

/-- The next state of an outcome, or the given one. -/
def nextOr (s : State) : Host.Outcome State Fault Refusal → State
  | .next t => t
  | .fault _ => s
  | .refused _ => s

/-! ### WellFormed: each check refuses an ill-formed term -/

theorem test_wf_play :
    Command.wf (.play (.int 128) 0) = false ∧ Command.wf (.play (.int (-129)) 0) = false ∧
    Command.wf (.play (.literal 'A') 0) = false ∧ Command.wf (.play (.int 5) 65536) = false ∧
    Command.wf (.play (.int (-128)) 65535) = true := by decide

theorem test_wf_pseudo :
    Command.wf (.digit ':' 0) = false ∧ Command.wf (.digit '5' 65536) = false ∧ Command.wf (.pause 65536) = false ∧
    Command.wf (.chirpUp 65536) = false ∧ Command.wf (.beepHigh 65536) = false ∧
    Command.wf (.beepLow 65536) = false ∧ Command.wf (.chirpDown 65536) = false := by decide

/-- One set of parameters for each way to break R12, and none of them builds. -/
theorem test_config_refused :
    Config.build { dataOf 16 with sineTable := 128 :: (sineFirst ++ sineSecond).drop 1 } = none ∧
    Config.build { dataOf 16 with sineTable := sineFirst } = none ∧
    Config.build { dataOf 16 with freqMap := List.replicate 12 (87, 51) } = none ∧
    Config.build { dataOf 16 with freqMap := (128, 0) :: (dataOf 16).freqMap.drop 1 } = none ∧
    Config.build { dataOf 16 with freqMap := (dataOf 16).freqMap ++ [(0, 0)] } = none ∧
    Config.build { dataOf 16 with ticksPerMs := 0 } = none ∧
    Config.build { dataOf 16 with ticksPerMs := 65537 } = none ∧
    Config.build { dataOf 16 with codeBeepHigh := 0 } = none ∧
    Config.build { dataOf 16 with codeBeepLow := -1 } = none ∧
    Config.build { dataOf 16 with codeChirpDown := -11 } = none ∧
    Config.build { dataOf 16 with codeBeepHigh := -129 } = none ∧
    Config.build { dataOf 16 with codeBeepLow := -12 } = none ∧
    Config.build { dataOf 16 with stepBeepHigh := 256 } = none ∧
    Config.build { dataOf 16 with stepsChirpDown := [1] } = none ∧
    Config.build { dataOf 16 with stepsChirpDown := [1, 256] } = none ∧
    Config.build { dataOf 16 with pwmTop := 0 } = none := by decide +kernel

/-! ### Decoding: words written bit by bit from the formats of 30_encoding.md R64 -/

/-- Format I: `OP = 0000 0001`, the rest 0. -/
theorem test_decode_init : decode 0b00000001000000000000000000000000#32 = .ok .init := by decide

/-- Format P: `OP = 0000 0010`, `CODE = 5`, `DUR = 100` (D2). -/
theorem test_decode_play_digit : decode 0b00000010000001010000000001100100#32 = .ok (.play 5#8 100#16) := by decide

/-- Format P: `CODE = -11`, `DUR = 300` (D4). -/
theorem test_decode_play_negative :
    (decode 0b00000010111101010000000100101100#32).instr? = some (.play (BitVec.ofInt 8 (-11)) 300#16) := by decide

/-- Format P: `CODE = -128`, `DUR = 0` (D8). -/
theorem test_decode_play_least :
    (decode 0b00000010100000000000000000000000#32).instr? = some (.play (BitVec.ofInt 8 (-128)) 0#16) := by decide

/-- D12, D14, D15, D16, D17. -/
theorem test_decode_illegal :
    decode 0x01000001#32 = .illegal 0x01000001#32 ∧ decode 0x01FFFFFF#32 = .illegal 0x01FFFFFF#32 ∧
    decode 0x00000000#32 = .illegal 0x00000000#32 ∧ decode 0x03000000#32 = .illegal 0x03000000#32 ∧
    decode 0xFF123456#32 = .illegal 0xFF123456#32 := by decide

theorem test_encode : encode .init = 0x01000000#32 ∧ encode (.play 11#8 80#16) = 0x020B0050#32 := by decide

theorem test_table_words :
    decodeTableWord 32 0x01000000 = some .init ∧ decodeTableWord 32 0x027F0001 = some (.play 127#8 1#16) ∧
    decodeTableWord 32 0x03000000 = none ∧ decodeTableWord 40 0x01000000 = none := by decide

/-- A comment, blanks, an empty line, a value out of range (30_encoding.md R73). -/
theorem test_assembler_text :
    assembleLines conf ["INIT ; 0x01000000".toList, "  ".toList, "CHIRP_UP 300".toList] =
      some [0x01000000#32, 0x02F5012C#32] ∧
    assembleLines conf ["PLAY 128, 0".toList] = none ∧
    assembleLines conf ["PLAY 5, 65536".toList] = none ∧
    assembleLines conf [".word 1".toList] = none := by decide

/-! ### The tick engine's arithmetic -/

/-- X3, X8, X11, X12. -/
theorem test_table_index :
    tableIndex 4 = 1 ∧ tableIndex 1020 = 0 ∧ tableIndex 65531 = 127 ∧ tableIndex 65535 = 0 := by decide

/-- B3, B4, B9, B10. -/
theorem test_blend :
    blend 0 127 = 96 ∧ blend 127 127 = 223 ∧ blend 96 82 = 158 ∧ blend 100 7 = 106 := by decide

/-- P(87), P(50), P(64), P(0) (section 3.4). -/
theorem test_period :
    phasePeriod 87 = 1024 ∧ phasePeriod 50 = 512 ∧ phasePeriod 64 = 16 ∧ phasePeriod 0 = 1 := by decide

/-- T1: the first tick of digit 5. -/
theorem test_tick_digit :
    let t := tick conf { idle with stepHi := 87, stepLo := 50, gateEn := true }
    t.accHi = 87 ∧ t.accLo = 50 ∧ t.duty = 158 ∧ t.tickCnt = 1 ∧ t.history = [.sample 158 true] := by decide

/-- T9: the counter wraps, and a silent low channel keeps its phase. -/
theorem test_tick_wrap :
    let t := tick conf { idle with accLo := 500, tickCnt := 0xFFFFFFFF }
    t.accHi = 0 ∧ t.accLo = 500 ∧ t.duty = 64 ∧ t.tickCnt = 0 := by decide

/-- The step formula at a tick rate of section G2's interval gives digit 5's widths (93_implementation_defined.md G2). -/
theorem test_step_formula : IsStepFor 87 1336 15700 ∧ IsStepFor 50 770 15700 := by
  constructor <;> norm_num [IsStepFor, Int.floor_eq_iff, eq_comm]

/-! ### Classes, notes, segments -/

/-- K4 to K7, K9 to K12. -/
theorem test_code_class :
    codeClass conf 11 = .digit 11 ∧ codeClass conf 12 = .silence ∧ codeClass conf 127 = .silence ∧
    codeClass conf (BitVec.ofInt 8 (-1)) = .silence ∧ codeClass conf (BitVec.ofInt 8 (-11)) = .chirpUp ∧
    codeClass conf 0xF4 = .beepHigh ∧ codeClass conf 0xF3 = .beepLow ∧ codeClass conf 0xF2 = .chirpDown := by
  decide

/-- S5: the remainder is dropped. -/
theorem test_resolve_chirp_up :
    let t := resolve conf { playing .resolve with cmdCode := 0xF5, cmdDur := 1 }
    t.nSeg = .three ∧ t.segHi = ⟨34, 43, 51⟩ ∧ t.segLo = 0 ∧ t.audible = true ∧ t.segTicks = 5 ∧ t.segIdx = 0 := by
  decide

/-- S7: two notes, and the third entry is not written. -/
theorem test_resolve_chirp_down :
    let t := resolve conf { playing .resolve with cmdCode := 0xF2, cmdDur := 7, segHi := ⟨1, 2, 3⟩ }
    t.nSeg = .two ∧ t.segHi = ⟨51, 34, 3⟩ ∧ t.segLo = 0 ∧ t.audible = true ∧ t.segTicks = 56 := by decide

/-- S1, S11. -/
theorem test_resolve_digit_and_silence :
    (let t := resolve conf (playing .resolve)
     t.nSeg = .one ∧ t.segHi.note0 = 87 ∧ t.segLo = 50 ∧ t.audible = true ∧ t.segTicks = 1600) ∧
    (let t := resolve conf { playing .resolve with cmdCode := 127, cmdDur := 65535 }
     t.nSeg = .one ∧ t.segHi.note0 = 0 ∧ t.segLo = 0 ∧ t.audible = false ∧ t.segTicks = 1048560) := by decide

/-! ### The sequencer's steps -/

/-- W1. -/
theorem test_wait_start :
    (ctrlStep conf (playing .waitStart)).tickCnt = 0 ∧ (ctrlStep conf (playing .waitStart)).ctrlPc = .wait := by decide

/-- W2, W3, W6, W7: the test of the wait is strict. -/
theorem test_wait_hold :
    { playing .wait with tickCnt := 1600 }.enabled .ctrl = false ∧
    { playing .wait with tickCnt := 1601 }.enabled .ctrl = true ∧
    { playing .wait with segTicks := 0, tickCnt := 0 }.enabled .ctrl = false ∧
    { playing .wait with segTicks := 0, tickCnt := 1 }.enabled .ctrl = true := by decide

/-- W3, W4, W5. -/
theorem test_wait_next :
    (ctrlStep conf (playing .wait)).ctrlPc = .gateOff ∧
    (ctrlStep conf (chirping .wait 0)).ctrlPc = .nextHi ∧ (ctrlStep conf (chirping .wait 0)).segIdx = 1 ∧
    (ctrlStep conf (chirping .wait 2)).ctrlPc = .gateOff := by decide

/-- The worked examples of R105, R111, R112, R113. -/
theorem test_setup_steps :
    (ctrlStep conf (playing .mask)).dialInhibit = true ∧ (ctrlStep conf (playing .setHi)).stepHi = 87 ∧
    (ctrlStep conf (playing .setLo)).stepLo = 50 ∧ (ctrlStep conf (playing .gateOn)).gateEn = true ∧
    (ctrlStep conf (playing .gateOn)).history = [.gate true] := by decide

/-- The worked example of R115. -/
theorem test_next_hi : (ctrlStep conf (chirping .nextHi 1)).stepHi = 43 := by decide

/-- G2 and the worked examples of R117, R118, R119. -/
theorem test_teardown_steps :
    (ctrlStep conf (playing .gateOff)).duty = 0 ∧ (ctrlStep conf (playing .gateOff)).pin = .low ∧
    (ctrlStep conf (playing .zeroHi)).stepHi = 0 ∧ (ctrlStep conf (playing .zeroLo)).stepLo = 0 ∧
    (ctrlStep conf (playing .unmask)).ctrlPc = .idle ∧
    (ctrlStep conf (playing .unmask)).history = [.inhibit false, .done 0x02050064#32] ∧
    (ctrlStep conf (playing .unmask)).hostWait = none := by decide

/-- G1, G3, G6. -/
theorem test_pin :
    (gateEnable { idle with duty := 158 }).pin = .pwm 158 ∧
    (gateDisable (gateDisable { idle with gateEn := true, duty := 158 })).pin = .low ∧
    { cold with gateEn := true }.pin = .undriven := by decide

/-! ### Host commands -/

/-- H1. -/
theorem test_init :
    (nextOr cold (exec .init cold)).timerOn = true ∧ (nextOr cold (exec .init cold)).pin = .low ∧
    (nextOr cold (exec .init cold)).history = [.cmd 0x01000000#32, .done 0x01000000#32] := by decide

/-- H5. -/
theorem test_init_again : { nextOr idle (exec .init idle) with history := [] } = idle := by decide

/-- H6: a PLAY of zero length. -/
theorem test_play_zero :
    (nextOr cold (exec (.play 5 0) idle)).cmdCode = 5 ∧ (nextOr cold (exec (.play 5 0) idle)).ctrlPc = .idle ∧
    (nextOr cold (exec (.play 5 0) idle)).history = [.cmd 0x02050000#32, .done 0x02050000#32] := by decide

/-- H3, H7: PLAY before INIT and after it. -/
theorem test_play :
    (nextOr cold (exec (.play 0 0) cold)).fault = some ⟨2#8, 0x02000000#32⟩ ∧
    (nextOr cold (exec (.play 5 100) idle)).ctrlPc = .mask ∧
    (nextOr cold (exec (.play 5 100) idle)).history = [.cmd 0x02050064#32] := by decide

/-- H4, H9: the order of the checks. -/
theorem test_fault_order :
    (nextOr cold (hostStep { cold with hostProg := [0x03000000#32] })).fault = some ⟨1#8, 0x03000000#32⟩ ∧
    (nextOr cold (hostStep { playing .mask with hostProg := [0#32] })).fault = some ⟨3#8, 0#32⟩ := by decide

/-- H1 and H2, as the first step after reset. -/
theorem test_first_step_init :
    let t := nextOr cold (step (State.reset.withFetchWord 32 0x01000000))
    t.timerOn = true ∧ t.pinOut = true ∧ t.fault = none ∧ t.hostWait = none := by decide

theorem test_first_step_play :
    let t := nextOr idle (step (State.reset.withFetchWord 32 0x02050064))
    t.fault = some ⟨2#8, 0x02050064#32⟩ ∧ t.history = [.cmd 0x02050064#32, .fault 2#8 0x02050064#32] := by decide

/-- H11: after a fault nothing moves. -/
theorem test_halted : step faulted = .fault (.halted 1#8 0x03000000#32) := rfl

/-! ### Witnesses: for each statement with hypotheses, a state and operands that meet them all -/

theorem witness_DecodeEncodeAgree :
    Instr.wf (.play 0x80 65535) = true ∧ decode 0x0280FFFF#32 = .ok (.play 0x80 65535) ∧
    decode 0x01000001#32 = .illegal 0x01000001#32 := by decide

/-- A word for each clause, at the ends of its range. -/
theorem witness_DecodeIsTotal :
    (0x01000000#32).toNat = 0x01000000 ∧
    (0x02000000#32).toNat / 2 ^ 24 = 2 ∧ (0x02FFFFFF#32).toNat / 2 ^ 24 = 2 ∧
    ((0x01FFFFFF#32).toNat ≠ 0x01000000 ∧ (0x01FFFFFF#32).toNat / 2 ^ 24 ≠ 2) ∧
    ((0x03000000#32).toNat ≠ 0x01000000 ∧ (0x03000000#32).toNat / 2 ^ 24 ≠ 2) := by decide

theorem witness_AssemblerChecksRanges :
    (-128 : Int) ≤ -128 ∧ (-128 : Int) ≤ 127 ∧ (65535 : Nat) ≤ 65535 ∧ digitValue '#' = some 11 := by decide

theorem witness_PseudoInstructionWords : (65535 : Nat) ≤ 65535 ∧ digitValue '0' = some 0 := by decide

theorem witness_CodeClassByValue : (0xFF#8 : Code).toInt = -1 := by decide

theorem witness_InitConfiguresTimerAndPin :
    (cold.fault = none ∧ cold.ctrlPc = .idle) ∧
    ((playing .unmask).fault = none ∧ (playing .unmask).ctrlPc ≠ .idle) ∧
    (opField 0x01000001#32 = 0x01#8 ∧ (0x01000001#32).extractLsb' 0 24 ≠ 0#24) := by decide

theorem witness_SecondInitChangesNothing :
    idle.fault = none ∧ idle.ctrlPc = .idle ∧ idle.timerOn = true ∧ idle.pinOut = true := by decide

theorem witness_PlayStartsSequencer :
    decode 0x0280FFFF#32 = .ok (.play 0x80 65535) ∧ idle.fault = none ∧ idle.ctrlPc = .idle ∧ idle.timerOn = true ∧
    (65535#16 : Duration) ≠ 0#16 := by decide

theorem witness_PlayOfZeroDurationIsNoOp :
    decode 0x02800000#32 = .ok (.play 0x80 0#16) ∧ idle.fault = none ∧ idle.ctrlPc = .idle ∧ idle.timerOn = true := by
  decide

theorem witness_PlayBeforeInitFaults :
    decode 0x02000000#32 = .ok (.play 0 0) ∧ cold.fault = none ∧ cold.ctrlPc = .idle ∧ cold.timerOn = false := by
  decide

/-- The HOST of a PLAY in progress, with a second word to issue. -/
def second (w : Word) : State := { playing .wait with hostProg := [w], hostWait := none }

theorem witness_WordWhileBusyFaults :
    (second 0#32).fault = none ∧ (second 0#32).ctrlPc ≠ .idle ∧ (second 0#32).hostProg = 0#32 :: [] := by decide

theorem witness_IllegalWordFaults :
    decode 0x03000000#32 = .illegal 0x03000000#32 ∧
    { idle with hostProg := [0x03000000#32] }.fault = none ∧ { idle with hostProg := [0x03000000#32] }.ctrlPc = .idle := by
  decide

/-- A command that is accepted, and one that faults. -/
theorem witness_CommandFrame :
    exec (.play 5 100) idle = .next (nextOr cold (exec (.play 5 100) idle)) ∧
    exec .init cold = .next (nextOr idle (exec .init cold)) ∧
    exec (.play 5 100) cold = .next (nextOr idle (exec (.play 5 100) cold)) ∧
    (nextOr idle (exec (.play 5 100) cold)).fault ≠ none := ⟨rfl, rfl, rfl, by decide⟩

theorem witness_StepRunsDecodedCommand :
    (let s := { idle with hostProg := [0x02050064#32], schedule := [.host] }
     s.fault = none ∧ s.hostWait = none ∧ s.hostProg = 0x02050064#32 :: [] ∧ s.schedule = .host :: []) ∧
    (let s := { cold with hostProg := [0x02050064#32] }
     s.fault = none ∧ s.hostWait = none ∧ s.schedule = [] ∧ s.ctrlPc = .idle ∧ s.timerOn = false) ∧
    decode 0x02050064#32 = .ok (.play 5 100) ∧
    tableWord 32 0x02050064 = some 0x02050064#32 ∧ tableWord 0 0 = some 0#32 := by decide

theorem witness_EveryEnabledAgentMayMove :
    { idle with hostProg := [0#32] }.enabled .host = true ∧ (playing .mask).enabled .ctrl = true ∧
    idle.enabled .tick = true := by decide

theorem witness_StepIsOneEnabledAgent :
    stepWith conf idle = .next (nextOr cold (stepWith conf idle)) ∧ idle.enabled .tick = true ∧
    faulted.fault = some ⟨1#8, 0x03000000#32⟩ ∧
    (cold.fault = none ∧ cold.enabled .host = false ∧ cold.enabled .ctrl = false ∧ cold.enabled .tick = false) :=
  ⟨rfl, by decide, rfl, by decide⟩

theorem witness_FaultStopsEveryAgent : faulted.fault = some ⟨1#8, 0x03000000#32⟩ := rfl

/-- One for each fault code. -/
theorem witness_FaultsArePrecise :
    (stepWith conf (cold.placeWord 0x03000000#32) =
        .next (nextOr cold (stepWith conf (cold.placeWord 0x03000000#32))) ∧
      (nextOr cold (stepWith conf (cold.placeWord 0x03000000#32))).fault = some ⟨1#8, 0x03000000#32⟩) ∧
    (stepWith conf (cold.placeWord 0x02000000#32) =
        .next (nextOr cold (stepWith conf (cold.placeWord 0x02000000#32))) ∧
      (nextOr cold (stepWith conf (cold.placeWord 0x02000000#32))).fault = some ⟨2#8, 0x02000000#32⟩) ∧
    (stepWith conf ((playing .mask).placeWord 0#32) =
        .next (nextOr cold (stepWith conf ((playing .mask).placeWord 0#32))) ∧
      (nextOr cold (stepWith conf ((playing .mask).placeWord 0#32))).fault = some ⟨3#8, 0#32⟩) :=
  ⟨⟨rfl, by decide⟩, ⟨rfl, by decide⟩, ⟨rfl, by decide⟩⟩

theorem witness_SilentLowChannel : { playing .wait with stepLo := 0 }.stepLo = 0#8 := rfl

theorem witness_SilentTicksWriteConstant : idle.stepHi = 0#8 ∧ idle.stepLo = 0#8 := ⟨rfl, rfl⟩

theorem witness_PhasePeriodicity : (playing .wait).stepLo ≠ 0#8 := by decide

/-- Two accumulators that differ above bit 9 only. -/
theorem witness_HighAccumulatorBitsAreUnobservable :
    let s := { playing .wait with accHi := 23, accLo := 178 }
    let t := { playing .wait with accHi := 8215, accLo := 14514 }
    s.accHi.toNat % 1024 = t.accHi.toNat % 1024 ∧ s.accLo.toNat % 1024 = t.accLo.toNat % 1024 ∧ s.stepHi = t.stepHi ∧
    s.stepLo = t.stepLo ∧ s.gateEn = t.gateEn ∧ s.history = t.history ∧ s.accHi ≠ t.accHi ∧
    t = { s with accHi := t.accHi, accLo := t.accLo } := by decide

/-- For the statement's two conclusions: a run that goes on and a run that stops. -/
theorem witness_HighAccumulatorBitsAreUnobservable_runs :
    runWith conf 1 idle = .next (nextOr cold (stepWith conf idle)) ∧
    runWith conf 1 faulted = .fault (.halted 1#8 0x03000000#32) := ⟨rfl, rfl⟩

theorem witness_WaitStartBeginsEpoch : (playing .waitStart).ctrlPc = .waitStart := rfl

/-- A last segment and an earlier one. -/
theorem witness_WaitHoldsThenAdvances :
    ((chirping .wait 0).ctrlPc = .wait ∧ (chirping .wait 0).fault = none ∧
      (chirping .wait 0).segIdx.val + 1 < segCountNat (chirping .wait 0).nSeg) ∧
    ((chirping .wait 2).ctrlPc = .wait ∧ (chirping .wait 2).fault = none ∧
      (chirping .wait 2).segIdx.val + 1 = segCountNat (chirping .wait 2).nSeg) := by decide

theorem witness_HoldLiftsAfterTargetTicks :
    let s := { playing .wait with tickCnt := 0, segTicks := 0xFFFFFFFE }
    s.ctrlPc = .wait ∧ s.fault = none ∧ s.tickCnt = 0#32 ∧ 2 ^ 32 - 1 < 2 ^ 32 := by decide

theorem witness_MaskDisablesDialInterrupts : (playing .mask).ctrlPc = .mask := rfl

/-- A state at RESOLVE for every class of code, the first and the last digit. -/
theorem witness_ResolveTurnsCodeIntoNotes :
    (playing .resolve).ctrlPc = .resolve ∧ codeClass conf 0 = .digit 0 ∧ codeClass conf 11 = .digit 11 ∧
    codeClass conf 0xF4 = .beepHigh ∧ codeClass conf 0xF3 = .beepLow ∧ codeClass conf 0xF5 = .chirpUp ∧
    codeClass conf 0xF2 = .chirpDown ∧ codeClass conf 12 = .silence := by decide

theorem witness_SetupWritesStepWidths : (playing .setHi).ctrlPc = .setHi ∧ (playing .setLo).ctrlPc = .setLo := ⟨rfl, rfl⟩

theorem witness_GateOnOpensForAudible :
    (playing .gateOn).ctrlPc = .gateOn ∧ (playing .gateOn).audible = true ∧
    { playing .gateOn with audible := false }.audible = false := by decide

theorem witness_NextHiChangesOnlyHighStep :
    ((chirping .nextHi 1).ctrlPc = .nextHi ∧ (chirping .nextHi 1).segIdx.val = 1) ∧
    ((chirping .nextHi 2).ctrlPc = .nextHi ∧ (chirping .nextHi 2).segIdx.val = 2) := by decide

theorem witness_GateOffForcesPinLow : (playing .gateOff).ctrlPc = .gateOff ∧ (playing .gateOff).pinOut = true := by decide

theorem witness_TeardownZeroesStepWidths : (playing .zeroHi).ctrlPc = .zeroHi ∧ (playing .zeroLo).ctrlPc = .zeroLo := ⟨rfl, rfl⟩

theorem witness_UnmaskCompletesPlay :
    (playing .unmask).ctrlPc = .unmask ∧
    decode 0x02050064#32 = .ok (.play (playing .unmask).cmdCode (playing .unmask).cmdDur) := by decide

theorem witness_GateIsIdempotent : (playing .wait).gateEn = true ∧ idle.gateEn = false ∧ idle.pinOut = true := by decide

theorem witness_PinFollowsState :
    cold.pinOut = false ∧ (idle.pinOut = true ∧ idle.gateEn = false) ∧
    ((playing .wait).pinOut = true ∧ (playing .wait).gateEn = true) := by decide

theorem witness_SingleWriterDiscipline :
    (ctrlStep conf (playing .gateOff)).duty ≠ (playing .gateOff).duty ∧
    (ctrlStep conf (playing .waitStart)).tickCnt ≠ (playing .waitStart).tickCnt ∧
    exec .init cold = .next (nextOr idle (exec .init cold)) := ⟨by decide, by decide, rfl⟩

theorem witness_TimerNeverStops :
    (stepWith conf idle = .next (nextOr cold (stepWith conf idle)) ∧ idle.timerOn = true ∧ idle.pinOut = true) ∧
    (let s := cold.placeWord 0x01000000#32
     stepWith conf s = .next (nextOr cold (stepWith conf s)) ∧ (nextOr cold (stepWith conf s)).timerOn ≠ s.timerOn) :=
  ⟨⟨rfl, by decide⟩, ⟨rfl, by decide⟩⟩

/-- `s` with CTRL next to move. -/
def ctrlNext (s : State) : State := { s with schedule := [.ctrl] }

theorem witness_SequencerOrder :
    stepWith conf (ctrlNext (playing .mask)) = .next (nextOr cold (stepWith conf (ctrlNext (playing .mask)))) ∧
    (nextOr cold (stepWith conf (ctrlNext (playing .mask)))).ctrlPc ≠ (ctrlNext (playing .mask)).ctrlPc :=
  ⟨rfl, by decide⟩

/-- The state of PLAY 5, 100 at UNMASK meets the invariant. -/
theorem witness_inv : (ctrlNext (playing .unmask)).Inv :=
  ⟨by decide, by decide, by decide, by decide, by decide, by decide, by decide, by decide, by decide, by decide, by decide⟩

theorem witness_StepKeepsInvariant :
    ∃ s t : State, s.Inv ∧ step s = .next t ∧ s.ctrlPc = .unmask ∧ t.ctrlPc = .idle :=
  ⟨ctrlNext (playing .unmask), nextOr cold (step (ctrlNext (playing .unmask))), witness_inv, rfl, by decide, by decide⟩

theorem witness_PlayLeavesBlockQuiet :
    ∃ s t : State, s.Inv ∧ stepWith conf s = .next t ∧ s.ctrlPc ≠ .idle ∧ t.ctrlPc = .idle :=
  ⟨ctrlNext (playing .unmask), nextOr cold (stepWith conf (ctrlNext (playing .unmask))), witness_inv, rfl, by decide,
    by decide⟩

theorem witness_BlockingHostNeverBusy :
    ∃ s t : State, s.Inv ∧ stepWith conf s = .next t ∧ t.fault = some ⟨2#8, 0x02050064#32⟩ :=
  ⟨cold.placeWord 0x02050064#32, nextOr cold (stepWith conf (cold.placeWord 0x02050064#32)),
    ⟨by decide, by decide, by decide, by decide, by decide, by decide, by decide, by decide, by decide, by decide,
      by decide⟩, rfl, by decide⟩

theorem witness_HostWaitsForDone :
    ∃ s t : State, s.hostWait = some 0x02050064#32 ∧ stepWith conf s = .next t ∧ t.hostWait = none :=
  ⟨ctrlNext (playing .unmask), nextOr cold (stepWith conf (ctrlNext (playing .unmask))), rfl, rfl, by decide⟩

theorem witness_HistoryIsAppendOnly :
    stepWith conf idle = .next (nextOr cold (stepWith conf idle)) ∧
    exec .init cold = .next (nextOr idle (exec .init cold)) := ⟨rfl, rfl⟩

theorem witness_EndStateIsStable :
    ∃ t, idle.Inv ∧ idle.ended = true ∧ stepWith conf idle = .next t :=
  ⟨nextOr cold (stepWith conf idle),
    ⟨by decide, by decide, by decide, by decide, by decide, by decide, by decide, by decide, by decide, by decide,
      by decide⟩, rfl, rfl⟩

/-- Two states at IDLE that differ in a latch and a segment register. -/
theorem witness_LatchesAreUnobservableAtIdle :
    let s := { idle with hostProg := [0x02050064#32], schedule := [.host] }
    let t := { s with cmdCode := 11, segTicks := 7 }
    s.ctrlPc = .idle ∧ t ≠ s ∧ runWith conf 1 s = .next (nextOr cold (stepWith conf s)) ∧
    runWith conf 1 { idle with fault := some ⟨1#8, 0#32⟩ } = .fault (.halted 1#8 0#32) := by
  refine ⟨rfl, by decide, rfl, rfl⟩

/-- PLAY 5, 1 with `TICKS_PER_MS = 1`, from MASK, with the TICK steps that lift the hold. -/
def shortPlay (code : Code) : State :=
  { playing .mask with
    cmdCode := code
    cmdDur := 1
    stepHi := 0
    stepLo := 0
    audible := false
    schedule := List.replicate 6 .ctrl ++ [.tick, .tick] ++ List.replicate 5 .ctrl }

/-- The run arrives at UNMASK with its twelfth step and not before. -/
theorem witness_DurationLaw :
    ∃ t, (shortPlay 5).ctrlPc = .mask ∧ runWith confOne 12 (shortPlay 5) = .next t ∧ t.ctrlPc = .unmask ∧
      ∀ j u, j < 12 → runWith confOne j (shortPlay 5) = .next u → u.ctrlPc ≠ .unmask := by
  refine ⟨nextOr cold (runWith confOne 12 (shortPlay 5)), rfl, rfl, rfl, fun j u hj hu => ?_⟩
  have h : ∀ j < 12, (nextOr cold (runWith confOne j (shortPlay 5))).ctrlPc ≠ .unmask := by decide
  have := h j hj
  rw [hu] at this
  exact this

theorem witness_SilenceNeverOpensGate :
    ∃ t, (shortPlay 0xFF).ctrlPc = .mask ∧ (shortPlay 0xFF).gateEn = false ∧
      codeClass confOne (shortPlay 0xFF).cmdCode = .silence ∧ runWith confOne 12 (shortPlay 0xFF) = .next t ∧
      ∀ j u, j < 12 → runWith confOne j (shortPlay 0xFF) = .next u → u.ctrlPc ≠ .idle := by
  refine ⟨nextOr cold (runWith confOne 12 (shortPlay 0xFF)), rfl, rfl, by decide, rfl, fun j u hj hu => ?_⟩
  have h : ∀ j < 12, (nextOr cold (runWith confOne j (shortPlay 0xFF))).ctrlPc ≠ .idle := by decide
  have := h j hj
  rw [hu] at this
  exact this

theorem witness_PlayCanComplete :
    (ctrlNext (playing .unmask)).Inv ∧ (ctrlNext (playing .unmask)).fault = none ∧
    (ctrlNext (playing .unmask)).ctrlPc ≠ .idle := ⟨witness_inv, rfl, by decide⟩

/-! ### Fair executions: some given steps, then TICK for ever -/

/-- The states of an execution whose first steps are those of the agents `l`, and all later ones TICK's. -/
def follow (c : Config) : List Agent → State → Nat → State
  | _, s, 0 => s
  | [], s, n + 1 => follow c [] (tick c s) n
  | a :: l, s, n + 1 => follow c l (nextOr s (agentStep c a s)) n

/-- The agents `l` can move one after the other, and then the machine is after INIT, at IDLE, with nothing to issue. -/
def Followable (c : Config) : List Agent → State → Prop
  | [], s => s.timerOn = true ∧ s.fault = none ∧ s.ctrlPc = .idle ∧ s.hostProg = []
  | a :: l, s =>
    s.enabled a = true ∧ agentStep c a s = .next (nextOr s (agentStep c a s)) ∧
      Followable c l (nextOr s (agentStep c a s))

/-- After the given steps the machine stays at IDLE. -/
theorem follow_idle (c : Config) (l : List Agent) (s : State) (h : Followable c l s) (n : Nat) (hn : l.length ≤ n) :
    (follow c l s n).ctrlPc = .idle := by
  induction n generalizing l s with
  | zero =>
    cases l with
    | nil => exact h.2.2.1
    | cons a l => simp at hn
  | succ n ih =>
    cases l with
    | nil => exact ih [] (tick c s) h (Nat.zero_le n)
    | cons a l => exact ih l _ h.2.2 (by simpa using hn)

theorem follow_moves (c : Config) (l : List Agent) (s : State) (h : Followable c l s) (n : Nat) :
    (follow c l s n).enabled (l.getD n .tick) = true ∧
      agentStep c (l.getD n .tick) (follow c l s n) = .next (follow c l s (n + 1)) ∧
      (l.length ≤ n → (follow c l s n).enabled .host = false ∧ (follow c l s n).enabled .ctrl = false) := by
  induction n generalizing l s with
  | zero =>
    cases l with
    | nil =>
      obtain ⟨h1, h2, h3, h4⟩ := h
      exact ⟨by simp [follow, State.enabled, h1, h2], rfl, fun _ =>
        ⟨by simp [follow, State.enabled, State.hostReady, h4],
          by simp [follow, State.enabled, State.ctrlReady, State.busy, h3]⟩⟩
    | cons a l => exact ⟨h.1, h.2.1, fun hn => by simp at hn⟩
  | succ n ih =>
    cases l with
    | nil =>
      obtain ⟨h1, h2, h3⟩ := ih [] (tick c s) h
      exact ⟨h1, h2, fun _ => h3 (Nat.zero_le n)⟩
    | cons a l =>
      obtain ⟨h1, h2, h3⟩ := ih l _ h.2.2
      exact ⟨h1, h2, fun hn => h3 (by simpa using hn)⟩

/-- That execution. -/
def followed (c : Config) (l : List Agent) (s : State) (h : Followable c l s) : Execution c where
  state := follow c l s
  mover n := some (l.getD n .tick)
  moves n a ha := by
    cases ha
    exact ⟨(follow_moves c l s h n).1, (follow_moves c l s h n).2.1⟩
  rests n hn := by cases hn

/-- It is fair in the sense of R170, and CTRL is not starved in it. -/
theorem followed_weakFair (c : Config) (l : List Agent) (s : State) (h : Followable c l s) :
    (followed c l s h).WeakFair ∧ (followed c l s h).CtrlNotStarved := by
  have late : ∀ m, l.length ≤ m → _ := fun m hm => (follow_moves c l s h m).2.2 hm
  refine ⟨⟨fun n hn => ?_, fun n hn => ?_, fun n _ => ⟨n + l.length, by omega, ?_⟩⟩, fun n hn => ?_⟩
  · have h1 := hn (n + l.length) (by omega)
    have h2 := (late (n + l.length) (by omega)).1
    exact absurd (h1.symm.trans h2) (by simp)
  · have h1 := hn (n + l.length) (by omega)
    have h2 := (late (n + l.length) (by omega)).2
    exact absurd (h1.symm.trans h2) (by simp)
  · simp [followed]
  · obtain ⟨k, hk, h1⟩ := hn (n + l.length) (by omega)
    have h2 := (late k (by omega)).2
    exact absurd (h1.symm.trans h2) (by simp)

/-- It is fair when none of the given steps is a TICK: all of its TICK steps are then at IDLE. -/
theorem followed_fair (c : Config) (l : List Agent) (s : State) (h : Followable c l s) (hl : ∀ a ∈ l, a ≠ .tick) :
    (followed c l s h).Fair := by
  refine ⟨(followed_weakFair c l s h).1, fun n hw hm => ?_⟩
  by_cases hn : l.length ≤ n
  · exact absurd ((follow_idle c l s h n hn).symm.trans hw) (by simp)
  · have hm : l.getD n .tick = .tick := Option.some.inj hm
    rw [List.getD_eq_getElem l .tick (by omega)] at hm
    exact absurd hm (hl _ (List.getElem_mem _))

theorem waiting_inv : (playing .wait).Inv :=
  ⟨by decide, by decide, by decide, by decide, by decide, by decide, by decide, by decide, by decide, by decide, by decide⟩

/-- The last five steps of PLAY 5, 100. -/
theorem ending_followable : Followable conf (List.replicate 5 .ctrl) (playing .wait) :=
  ⟨rfl, rfl, rfl, rfl, rfl, rfl, rfl, rfl, rfl, rfl, rfl, rfl, rfl, rfl⟩

theorem witness_FairnessAndWaits :
    (∃ (e : Execution conf) (n : Nat), e.Fair ∧ e.CtrlNotStarved ∧ (e.state n).Inv ∧ (e.state n).fault = none ∧
      (e.state n).ctrlPc = .wait) ∧
    ((playing .wait).Inv ∧ (playing .wait).fault = none ∧ (playing .wait).ctrlPc = .wait) :=
  ⟨⟨followed conf _ _ ending_followable, 0, followed_fair _ _ _ _ (by decide), (followed_weakFair _ _ _ _).2, waiting_inv,
    rfl, rfl⟩, waiting_inv, rfl, rfl⟩

/-- The program that is INIT alone. -/
theorem init_followable : Followable conf [.host] (State.entry [0x01000000#32] []) := ⟨rfl, rfl, rfl, rfl, rfl, rfl⟩

theorem witness_CleanRunsEnd :
    ∃ e : Execution conf, e.CleanRun [0x01000000#32] ∧ e.WeakFair ∧ e.CtrlNotStarved ∧
      [0x01000000#32].head? = some 0x01000000#32 ∧ ∀ w ∈ [0x01000000#32], decode w ≠ .illegal w :=
  ⟨followed conf _ _ init_followable, ⟨⟨[], rfl⟩, followed_fair _ _ _ _ (by decide)⟩, (followed_weakFair _ _ _ _).1,
    (followed_weakFair _ _ _ _).2, rfl, fun w hw => by
    rw [List.mem_singleton.mp hw]
    decide⟩

end Sys2Proof.Tests
end

section
/-! PROOFS. The scope rules of 00_scope.md: which parameters build a configuration (R12, R13), and that an enabled agent
may move next (R9). -/

namespace Sys2Proof.ConfigData

/-! ### R12's checks, each as the constraint it decides -/

theorem sineOk_iff (d : ConfigData) :
    d.sineOk = true ↔ d.sineTable.length = 128 ∧ ∀ v ∈ d.sineTable, v ≤ 127 := by
  simp [sineOk]

theorem freqOk_iff (d : ConfigData) :
    d.freqOk = true ↔
      d.freqMap.length = 12 ∧ (∀ e ∈ d.freqMap, e.1 ≤ 127 ∧ e.2 ≤ 127) ∧ d.freqMap[5]? = some (87, 50) := by
  simp [freqOk, and_assoc]

theorem ticksOk_iff (d : ConfigData) :
    d.ticksOk = true ↔ 1 ≤ d.ticksPerMs ∧ 65535 * d.ticksPerMs ≤ 2 ^ 32 - 2 := by
  simp [ticksOk]

theorem codeOk_iff (v : Int) : codeOk v = true ↔ -128 ≤ v ∧ v < 0 ∧ v ≠ -11 ∧ v ≠ -1 := by
  simp [codeOk, and_assoc]

theorem codesOk_iff (d : ConfigData) :
    d.codesOk = true ↔
      (∀ v ∈ [d.codeBeepHigh, d.codeBeepLow, d.codeChirpDown], -128 ≤ v ∧ v < 0 ∧ v ≠ -11 ∧ v ≠ -1) ∧
      (d.codeBeepHigh ≠ d.codeBeepLow ∧ d.codeBeepHigh ≠ d.codeChirpDown ∧ d.codeBeepLow ≠ d.codeChirpDown) := by
  simp only [codesOk, ← codeOk_iff, Bool.and_eq_true, decide_eq_true_eq, List.forall_mem_cons, List.not_mem_nil,
    false_imp_iff, implies_true, and_true, and_assoc]

theorem stepsOk_iff (d : ConfigData) :
    d.stepsOk = true ↔
      (d.stepBeepHigh ≤ 255 ∧ d.stepBeepLow ≤ 255) ∧
      ((d.stepsChirpDown.length = 2 ∨ d.stepsChirpDown.length = 3) ∧ ∀ v ∈ d.stepsChirpDown, v ≤ 255) := by
  simp [stepsOk, and_assoc]

/-- That `TICK_RATE_HZ` is positive is its type. -/
theorem informativeOk_iff (d : ConfigData) : d.informativeOk = true ↔ 0 < d.tickRateHz.val ∧ 0 < d.pwmTop := by
  simp [informativeOk, d.tickRateHz.property]

theorem wf_iff (d : ConfigData) :
    d.wf = true ↔
      d.sineOk = true ∧ d.freqOk = true ∧ d.ticksOk = true ∧ d.codesOk = true ∧ d.stepsOk = true ∧
        d.informativeOk = true := by
  simp [wf, and_assoc]

end Sys2Proof.ConfigData

namespace Sys2Proof

/-- Parameters build a configuration exactly when they pass all of R12's checks (R13). -/
theorem Config.build_ne_none_iff (d : ConfigData) : Config.build d ≠ none ↔ d.wf = true := by
  by_cases h : d.wf = true
  · simp [Config.build, h]
  · simp [Config.build, h]

/-- Settles O7: `build` succeeds exactly on `wf`, and each check of `wf` decides its constraint of R12. -/
theorem badConfigurationIsRefused : Obligations.BadConfigurationIsRefused := by
  intro d
  rw [Config.build_ne_none_iff, d.wf_iff, d.sineOk_iff, d.freqOk_iff, d.ticksOk_iff, d.codesOk_iff, d.stepsOk_iff,
    d.informativeOk_iff]
  simp only [and_assoc]

end Sys2Proof

namespace Sys2Proof.Machine

/-- No agent has a step once a fault is recorded (60_exceptions.md R142). -/
theorem fault_none_of_enabled {s : State} {a : Agent} (h : s.enabled a = true) : s.fault = none := by
  cases a <;> exact Option.isNone_iff_eq_none.mp (Bool.and_eq_true_iff.mp h).1

/-- Settles O19: the schedule that names the enabled agent first makes the next step that agent's. -/
theorem everyEnabledAgentMayMove : Obligations.EveryEnabledAgentMayMove := by
  intro c s a sch ha
  have hf : s.fault = none := fault_none_of_enabled ha
  exact stepWith_head (s := { s with schedule := a :: sch }) hf rfl ((enabled_schedule s (a :: sch) s.draws a).trans ha)

end Sys2Proof.Machine
end

section
/-! PROOFS. The state rules of 10_state.md: the pin (R31), the state after reset (R39), who writes which register
(R25 to R27), and that the command latches and the segment registers are unobservable at IDLE (R35). -/

namespace Sys2Proof.Machine

/-! ### The pin and the state after reset -/

@[simp] theorem State.pin_of_undriven {s : State} (h : s.pinOut = false) : s.pin = .undriven := by
  simp [State.pin, h]

@[simp] theorem State.pin_of_closed {s : State} (h : s.pinOut = true) (hg : s.gateEn = false) : s.pin = .low := by
  simp [State.pin, h, hg]

@[simp] theorem State.pin_of_open {s : State} (h : s.pinOut = true) (hg : s.gateEn = true) :
    s.pin = .pwm s.duty := by
  simp [State.pin, h, hg]

/-- Settles O43, one case of R31 at a time. -/
theorem pinFollowsState : Obligations.PinFollowsState :=
  fun _ => ⟨State.pin_of_undriven, State.pin_of_closed, State.pin_of_open⟩

/-- Right after reset the HOST waits for nothing, so its next word alone decides whether it can step. -/
theorem entry_host_enabled_iff (prog : List Word) (sch : List Agent) :
    (State.entry prog sch).enabled .host = true ↔ prog ≠ [] := by
  cases prog with
  | nil => exact ⟨fun h => absurd h Bool.false_ne_true, fun h => absurd rfl h⟩
  | cons w rest => exact ⟨fun _ => List.cons_ne_nil w rest, fun _ => rfl⟩

/-- Settles O47: the values are those that `State.reset` names. -/
theorem resetState : Obligations.ResetState :=
  ⟨⟨rfl, rfl, rfl, rfl⟩, ⟨rfl, rfl, rfl, rfl, rfl, rfl⟩, State.pin_of_undriven rfl, rfl, fun prog sch =>
    ⟨rfl, rfl, entry_host_enabled_iff prog sch⟩⟩

/-- Settles O48: at IDLE the invariant asks nothing of the registers that R39 leaves unspecified, and the others have
the values that it asks for. -/
theorem resetMeetsInvariant : Obligations.ResetMeetsInvariant := fun _ _ =>
  { init := rfl
    playing := fun h => absurd rfl h
    stepHi := fun _ => rfl
    stepLo := fun _ => rfl
    gate := rfl
    inhibit := rfl
    segment := fun h => absurd h Bool.false_ne_true
    target := fun h => absurd h Bool.false_ne_true
    next := nofun
    waiting := fun _ => rfl
    nonzero := fun h => absurd rfl h }

/-! ### What a CTRL step writes -/

/-- What WAIT does to the state, whichever way it goes. -/
theorem wait_cases (s : State) :
    (s.segIdx.val + 1 < segCountNat s.nSeg ∧ wait s = ({ s with segIdx := s.segIdx + 1 }).goto .nextHi) ∨
      (segCountNat s.nSeg ≤ s.segIdx.val + 1 ∧ wait s = s.goto .gateOff) := by
  by_cases h : s.segIdx.val + 1 < segCountNat s.nSeg
  · exact .inl ⟨h, if_pos h⟩
  · exact .inr ⟨Nat.le_of_not_lt h, if_neg h⟩

/-- What GATE_ON does to the state, for an audible code and for silence. -/
theorem gateOn_cases (s : State) :
    (s.audible = true ∧ gateOn s = (gateEnable s).goto .waitStart) ∨
      (s.audible = false ∧ gateOn s = s.goto .waitStart) := by
  cases h : s.audible <;> simp [gateOn, h]

/-- What a CTRL step does to the registers that have other writers (10_state.md R25 to R27): it leaves the accumulators,
the timer and the pin alone, and writes `duty` and `tick_cnt` at one state of the sequencer each. -/
theorem ctrlStep_shared (c : Config) (s : State) :
    (ctrlStep c s).accHi = s.accHi ∧ (ctrlStep c s).accLo = s.accLo ∧
      (ctrlStep c s).duty = (if s.ctrlPc = .gateOff then 0#8 else s.duty) ∧
      (ctrlStep c s).tickCnt = (if s.ctrlPc = .waitStart then 0#32 else s.tickCnt) ∧
      (ctrlStep c s).timerOn = s.timerOn ∧ (ctrlStep c s).pinOut = s.pinOut := by
  cases hp : s.ctrlPc with
  | gateOn => obtain ⟨-, h⟩ | ⟨-, h⟩ := gateOn_cases s <;> simp [ctrlStep, hp, h]
  | wait => obtain ⟨-, h⟩ | ⟨-, h⟩ := wait_cases s <;> simp [ctrlStep, hp, h]
  | _ => simp [ctrlStep, hp, mask, resolve, setHi, setLo, waitStart, nextHi, gateOff, zeroHi, zeroLo, unmask]

/-! ### What a command writes -/

/-- The registers of the datapath (10_state.md R18 to R24). -/
def State.datapath (s : State) : Phase × Phase × StepWidth × StepWidth × Duty × TickCount :=
  (s.accHi, s.accLo, s.stepHi, s.stepLo, s.duty, s.tickCnt)

/-- `timer_on` and `pin_out` (10_state.md R26, R27). -/
def State.powered (s : State) : Bool × Bool := (s.timerOn, s.pinOut)

/-- ISSUE keeps whatever neither an event, nor a raised fault, nor the word's own meaning changes. -/
theorem issue_keeps {α : Type} (g : State → α) {w : Word} {p : State → State} {s t : State}
    (hemit : ∀ u e, g (State.emit u e) = g u) (hraise : ∀ u code info, g (State.raise u code info) = g u)
    (hp : ∀ u, g (p u) = g u) (h : issue w p s = .next t) : g t = g s := by
  obtain ⟨-, ⟨-, rfl⟩ | ⟨-, rfl⟩⟩ := issue_cases h
  · exact (hraise _ _ _).trans (hemit _ _)
  · exact (hp _).trans (hemit _ _)

theorem performPlay_datapath (code : Code) (dur : Duration) (s : State) :
    (performPlay code dur s).datapath = s.datapath := by
  obtain ⟨-, h⟩ | ⟨-, -, h⟩ | ⟨-, -, h⟩ := performPlay_cases code dur s <;> rw [h] <;> rfl

theorem performPlay_powered (code : Code) (dur : Duration) (s : State) :
    (performPlay code dur s).powered = s.powered := by
  obtain ⟨-, h⟩ | ⟨-, -, h⟩ | ⟨-, -, h⟩ := performPlay_cases code dur s <;> rw [h] <;> rfl

theorem exec_datapath {i : Instr} {s t : State} (h : exec i s = .next t) : t.datapath = s.datapath :=
  match i, h with
  | .init, h =>
    issue_keeps (p := performInit) State.datapath (fun _ _ => rfl) (fun _ _ _ => rfl) (fun _ => rfl) h
  | .play code dur, h =>
    issue_keeps State.datapath (fun _ _ => rfl) (fun _ _ _ => rfl) (performPlay_datapath code dur) h

/-- Settles O44: a changed `duty` or `tick_cnt` shows at which state CTRL was; TICK's part is its own laws. -/
theorem singleWriterDiscipline : Obligations.SingleWriterDiscipline := by
  refine ⟨fun c s => ?_, fun c s => by simp, fun i s t h => ?_⟩
  · obtain ⟨haccHi, haccLo, hduty, htick, htimer, hpin⟩ := ctrlStep_shared c s
    refine ⟨haccHi, haccLo, fun h => ?_, fun h => ?_, htimer, hpin⟩
    · have hpc : s.ctrlPc = .gateOff := by_contra fun hpc => h (hduty.trans (if_neg hpc))
      exact ⟨hpc, hduty.trans (if_pos hpc)⟩
    · have hpc : s.ctrlPc = .waitStart := by_contra fun hpc => h (htick.trans (if_neg hpc))
      exact ⟨hpc, htick.trans (if_pos hpc)⟩
  · simpa [State.datapath] using exec_datapath h

/-! ### The timer and the pin -/

theorem eq_of_decode_init {w : Word} (h : decode w = .ok .init) : w = 0x01000000#32 := by
  by_contra hw
  rw [decode, if_neg hw] at h
  split at h <;> simp at h

/-- That a step from `s` to `t` issues INIT: the word leaves the host program, its CMD and its DONE enter the history, and
the timer and the pin are on (R131). -/
def IssuesInit (s t : State) : Prop :=
  ∃ rest, s.hostProg = 0x01000000#32 :: rest ∧ t.hostProg = rest ∧
    t.history = s.history ++ [.cmd 0x01000000#32, .done 0x01000000#32] ∧ t.timerOn = true ∧ t.pinOut = true

/-- A HOST step leaves the timer and the pin as they are, unless it issues INIT at IDLE. -/
theorem hostStep_powered {s t : State} (h : hostStep s = .next t) : t.powered = s.powered ∨ IssuesInit s t := by
  obtain ⟨w, rest, hw, ⟨i, hd, hi⟩ | ⟨-, hi⟩⟩ := hostStep_cases h
  · cases i with
    | init =>
      obtain rfl := eq_of_decode_init hd
      obtain ⟨-, ⟨-, rfl⟩ | ⟨-, rfl⟩⟩ := issue_cases hi
      · exact .inl rfl
      · exact .inr ⟨rest, hw, rfl, List.append_assoc _ _ _, rfl, rfl⟩
    | play code dur =>
      have hk := issue_keeps State.powered (fun _ _ => rfl) (fun _ _ _ => rfl) (performPlay_powered code dur) hi
      exact .inl hk
  · have hk := issue_keeps (p := (State.raise · illegalCommand w)) State.powered (fun _ _ => rfl) (fun _ _ _ => rfl)
      (fun _ => rfl) hi
    exact .inl hk

/-- The same of every step, since CTRL and TICK write neither. -/
theorem stepWith_powered {c : Config} {s t : State} (h : stepWith c s = .next t) :
    t.powered = s.powered ∨ IssuesInit s t := by
  obtain ⟨-, a, sch, n, -, ha⟩ := stepWith_cases h
  cases a with
  | host =>
    have hk := hostStep_powered ha
    exact hk
  | ctrl =>
    obtain ⟨-, -, -, -, htimer, hpin⟩ := ctrlStep_shared c { s with schedule := sch, draws := n }
    cases ha
    exact .inl (Prod.ext htimer hpin)
  | tick => cases ha; exact .inl rfl

theorem tick_enabled {s : State} (ht : s.timerOn = true) (hf : s.fault = none) : s.enabled .tick = true := by
  simp [State.enabled, ht, hf]

/-- Settles O45: a step keeps the timer and the pin, or it issues INIT, which turns both on. -/
theorem timerNeverStops : Obligations.TimerNeverStops := by
  intro c s t h
  obtain hkeep | hinit := stepWith_powered h
  · obtain ⟨ht, hp⟩ := Prod.mk.inj hkeep
    exact ⟨ht.trans, hp.trans, fun hne => absurd hne (not_or.mpr ⟨not_not.mpr ht, not_not.mpr hp⟩), tick_enabled⟩
  · have ⟨_, _, _, _, ht, hp⟩ := hinit
    exact ⟨fun _ => ht, fun _ => hp, fun _ => hinit, tick_enabled⟩

/-! ### States that differ in their latches alone

Two states are similar when they agree on every register but those of R33 and R34, and on those as far as the sequencer
still reads them: on the command latches outside IDLE, and on the segment registers from RESOLVE's turn to the end of the
tone, there on the notes below `n_seg` alone, since RESOLVE leaves the others as they were (R106). Every step leads similar
states to similar states, and the observed registers are not among the latches. -/

/-- The command latches and the segment registers (10_state.md R33, R34). -/
structure Latches where
  cmdCode : Code
  cmdDur : Duration
  nSeg : SegCount
  segHi : SegHi
  segLo : StepWidth
  segTicks : TickCount
  audible : Bool
  segIdx : Fin 3

/-- The latches of a state. -/
def State.latches (s : State) : Latches :=
  ⟨s.cmdCode, s.cmdDur, s.nSeg, s.segHi, s.segLo, s.segTicks, s.audible, s.segIdx⟩

/-- `s` with other values in its latches. -/
def State.withLatches (s : State) (l : Latches) : State :=
  { s with
    cmdCode := l.cmdCode
    cmdDur := l.cmdDur
    nSeg := l.nSeg
    segHi := l.segHi
    segLo := l.segLo
    segTicks := l.segTicks
    audible := l.audible
    segIdx := l.segIdx }

/-- The same tone: equal segment registers, up to the notes that no segment has. -/
structure Latches.SameTone (k l : Latches) : Prop where
  nSeg : l.nSeg = k.nSeg
  segLo : l.segLo = k.segLo
  segTicks : l.segTicks = k.segTicks
  audible : l.audible = k.audible
  segIdx : l.segIdx = k.segIdx
  /-- `seg_idx` names one of the segments. -/
  segment : k.segIdx.val < segCountNat k.nSeg
  notes : ∀ i : Fin 3, i.val < segCountNat k.nSeg → segHiAt l.segHi i = segHiAt k.segHi i

/-- Equal as far as the rest of the sequence reads the latches from `pc` on. -/
structure Latches.AgreeAt (pc : CtrlPc) (k l : Latches) : Prop where
  command : pc ≠ .idle → l.cmdCode = k.cmdCode ∧ l.cmdDur = k.cmdDur
  tone : pc.segmented = true → k.SameTone l

/-- At IDLE nothing of the latches is read (R35). -/
theorem Latches.agreeAt_idle (k l : Latches) : Latches.AgreeAt .idle k l :=
  ⟨fun h => absurd rfl h, nofun⟩

/-- At MASK only the command latches will be read. -/
theorem Latches.agreeAt_mask {k l : Latches} (hcode : l.cmdCode = k.cmdCode) (hdur : l.cmdDur = k.cmdDur) :
    Latches.AgreeAt .mask k l :=
  ⟨fun _ => ⟨hcode, hdur⟩, nofun⟩

/-- Similar states. -/
structure State.Similar (s t : State) : Prop where
  frame : t = s.withLatches t.latches
  agree : Latches.AgreeAt s.ctrlPc s.latches t.latches

/-- At IDLE any other latches make a similar state. -/
theorem State.similar_of_idle {s : State} (l : Latches) (h : s.ctrlPc = .idle) : s.Similar (s.withLatches l) :=
  ⟨rfl, h ▸ Latches.agreeAt_idle _ _⟩

/-- No observed register is a latch. -/
theorem State.Similar.observed {s t : State} (h : s.Similar t) :
    t.history = s.history ∧ t.pin = s.pin ∧ t.dialInhibit = s.dialInhibit ∧ t.fault = s.fault ∧
      t.ctrlPc = s.ctrlPc := by
  rw [h.frame]
  exact ⟨rfl, rfl, rfl, rfl, rfl⟩

/-- Steps that leave the latches alone, and after which no more of them is read than before, keep states similar. -/
theorem State.Similar.keep {s s' : State} {l : Latches} (h : s.Similar (s.withLatches l))
    (hl : s'.latches = s.latches) (hidle : s.ctrlPc = .idle → s'.ctrlPc = .idle)
    (htone : s'.ctrlPc.segmented = true → s.ctrlPc.segmented = true) : s'.Similar (s'.withLatches l) :=
  ⟨rfl, fun hb => by rw [hl]; exact h.agree.command (mt hidle hb), fun ht => by rw [hl]; exact h.agree.tone (htone ht)⟩

/-! ### The choice of the next agent -/

/-- The hold of WAIT is the one thing in an agent's enabling that reads a latch. -/
theorem State.Similar.enabled {s : State} {l : Latches} (h : s.Similar (s.withLatches l)) :
    (s.withLatches l).enabled = s.enabled := by
  have hheld : (s.withLatches l).held = s.held := by
    by_cases hp : s.ctrlPc = .wait
    · have ht : l.segTicks = s.segTicks := (h.agree.tone (by rw [hp]; rfl)).segTicks
      simp [State.held, State.withLatches, ht]
    · simp [State.held, State.withLatches, hp]
  funext a
  cases a with
  | host => rfl
  | ctrl => simp only [State.enabled, State.ctrlReady, hheld]; rfl
  | tick => rfl

theorem firstEnabled_congr {s t : State} (h : t.enabled = s.enabled) (sch : List Agent) :
    firstEnabled t sch = firstEnabled s sch := by
  induction sch with
  | nil => rfl
  | cons a rest ih => simp only [firstEnabled, h, ih]

/-- The choice of the next agent reads the latches only through the enabling, and writes none. -/
theorem chooseAgent_withLatches {s : State} {l : Latches} (h : (s.withLatches l).enabled = s.enabled) :
    chooseAgent (s.withLatches l) = (chooseAgent s).map fun p => (p.1, p.2.withLatches l) := by
  have hs : (s.withLatches l).schedule = s.schedule := rfl
  have ha : enabledAgents (s.withLatches l) = enabledAgents s := by rw [enabledAgents, h, enabledAgents]
  simp only [chooseAgent, hs, firstEnabled_congr h, ha]
  cases firstEnabled s s.schedule with
  | some p => rfl
  | none => cases enabledAgents s with
    | nil => rfl
    | cons a more => cases more <;> rfl

/-! ### Similar steps -/

/-- SET_HI reads the first note. -/
theorem setHi_withLatches {s : State} {l : Latches} (h : segHiAt l.segHi 0 = segHiAt s.segHi 0) :
    setHi (s.withLatches l) = (setHi s).withLatches l :=
  congrArg (fun v => (({ s with stepHi := v } : State).goto .setLo).withLatches l) h

/-- SET_LO reads `seg_lo`. -/
theorem setLo_withLatches {s : State} {l : Latches} (h : l.segLo = s.segLo) :
    setLo (s.withLatches l) = (setLo s).withLatches l :=
  congrArg (fun v => (({ s with stepLo := v } : State).goto .gateOn).withLatches l) h

/-- GATE_ON reads `audible`. -/
theorem gateOn_withLatches {s : State} {l : Latches} (h : l.audible = s.audible) :
    gateOn (s.withLatches l) = (gateOn s).withLatches l := by
  have ha : (s.withLatches l).audible = s.audible := h
  rw [gateOn, gateOn, ha]
  split <;> rfl

/-- NEXT_HI reads the note of the segment that begins. -/
theorem nextHi_withLatches {s : State} {l : Latches} (h : segHiAt l.segHi l.segIdx = segHiAt s.segHi s.segIdx) :
    nextHi (s.withLatches l) = (nextHi s).withLatches l :=
  congrArg (fun v => (({ s with stepHi := v } : State).goto .waitStart).withLatches l) h

/-- UNMASK reads the command latches, whose word its DONE names. -/
theorem unmask_withLatches {s : State} {l : Latches} (hcode : l.cmdCode = s.cmdCode) (hdur : l.cmdDur = s.cmdDur) :
    unmask (s.withLatches l) = (unmask s).withLatches l := by
  have hw : (s.withLatches l).latchedWord = s.latchedWord := congrArg₂ (fun k d => encode (.play k d)) hcode hdur
  rw [unmask, unmask, hw]
  rfl

/-- The notes that RESOLVE writes do not depend on what `seg_hi` held (R106). -/
theorem segHiAt_writeNotes (g h : SegHi) (n : Notes) (i : Fin 3) (hi : i.val < segCountNat (noteCount n)) :
    segHiAt (writeNotes g n) i = segHiAt (writeNotes h n) i := by
  cases n <;> fin_cases i <;> simp_all [segHiAt, writeNotes, segCountNat, noteCount]

theorem segCountNat_pos (n : SegCount) : 0 < segCountNat n := by
  cases n <;> decide

theorem segCountNat_le (n : SegCount) : segCountNat n ≤ 3 := by
  cases n <;> decide

/-- RESOLVE makes the same tone of the same code and duration. -/
theorem resolve_similar (c : Config) {s : State} {l : Latches} (hcode : l.cmdCode = s.cmdCode)
    (hdur : l.cmdDur = s.cmdDur) : (resolve c s).Similar (resolve c (s.withLatches l)) := by
  have hcode' : (s.withLatches l).cmdCode = s.cmdCode := hcode
  have hdur' : (s.withLatches l).cmdDur = s.cmdDur := hdur
  simp only [resolve, hcode', hdur']
  exact ⟨rfl, fun _ => ⟨hcode, hdur⟩, fun _ =>
    ⟨rfl, rfl, rfl, rfl, rfl, segCountNat_pos _, segHiAt_writeNotes _ _ _⟩⟩

/-- WAIT goes the same way for the same tone, and `seg_idx` stays below `n_seg`. -/
theorem wait_similar {s : State} {l : Latches} (h : s.Similar (s.withLatches l)) (hp : s.ctrlPc = .wait) :
    (wait s).Similar (wait (s.withLatches l)) := by
  have ht : s.latches.SameTone l := h.agree.tone (by rw [hp]; rfl)
  have hn : (s.withLatches l).nSeg = s.nSeg := ht.nSeg
  have hi : (s.withLatches l).segIdx = s.segIdx := ht.segIdx
  obtain ⟨hlt, hw⟩ | ⟨hle, hw⟩ := wait_cases s
  · have hw' : wait (s.withLatches l) = ({ s.withLatches l with segIdx := s.segIdx + 1 } : State).goto .nextHi := by
      rw [← hi, wait, if_pos (by rw [hn, hi]; exact hlt)]
    have hnext : (s.segIdx + 1).val = s.segIdx.val + 1 :=
      Fin.val_add_one_of_lt' (hlt.trans_le (segCountNat_le s.nSeg))
    rw [hw, hw']
    exact ⟨rfl, fun _ => h.agree.command (by rw [hp]; decide), fun _ =>
      { ht with segIdx := rfl, segment := hnext ▸ hlt }⟩
  · have hw' : wait (s.withLatches l) = (s.withLatches l).goto .gateOff := by
      rw [wait, hn, hi, if_neg (Nat.not_lt.mpr hle)]
    rw [hw, hw']
    exact h.keep rfl (fun hq => absurd (hp.symm.trans hq) (by decide)) (fun _ => by rw [hp]; rfl)

/-- A CTRL step keeps similar states similar: RESOLVE reads the command latches, the steps from SET_HI to NEXT_HI read the
tone, UNMASK reads the command latches again, and the others read none. -/
theorem ctrlStep_similar (c : Config) {s : State} {l : Latches} (h : s.Similar (s.withLatches l)) :
    (ctrlStep c s).Similar (ctrlStep c (s.withLatches l)) := by
  have hpc : (s.withLatches l).ctrlPc = s.ctrlPc := rfl
  have hcmd : s.ctrlPc ≠ .idle → l.cmdCode = s.cmdCode ∧ l.cmdDur = s.cmdDur := h.agree.command
  have htone : s.ctrlPc.segmented = true → s.latches.SameTone l := h.agree.tone
  have hkeep : ∀ s' : State, s'.latches = s.latches → s.ctrlPc ≠ .idle →
      (s'.ctrlPc.segmented = true → s.ctrlPc.segmented = true) → s'.Similar (s'.withLatches l) :=
    fun s' hl hb ht => h.keep hl (fun hi => absurd hi hb) ht
  simp only [ctrlStep, hpc]
  cases hp : s.ctrlPc <;> rw [hp] at hcmd htone hkeep
  case idle => exact h
  case mask => exact hkeep (mask s) rfl nofun nofun
  case resolve =>
    obtain ⟨hcode, hdur⟩ := hcmd nofun
    exact resolve_similar c hcode hdur
  case setHi =>
    rw [setHi_withLatches ((htone rfl).notes 0 (segCountNat_pos _))]
    exact hkeep _ rfl nofun fun _ => rfl
  case setLo =>
    rw [setLo_withLatches (htone rfl).segLo]
    exact hkeep _ rfl nofun fun _ => rfl
  case gateOn =>
    rw [gateOn_withLatches (htone rfl).audible]
    refine hkeep _ ?_ nofun fun _ => rfl
    obtain ⟨-, hg⟩ | ⟨-, hg⟩ := gateOn_cases s <;> rw [hg] <;> rfl
  case waitStart => exact hkeep (waitStart s) rfl nofun fun _ => rfl
  case wait => exact wait_similar h hp
  case nextHi =>
    have ht := htone rfl
    rw [nextHi_withLatches (ht.segIdx ▸ ht.notes _ ht.segment)]
    exact hkeep _ rfl nofun fun _ => rfl
  case gateOff => exact hkeep (gateOff s) rfl nofun nofun
  case zeroHi => exact hkeep (zeroHi s) rfl nofun nofun
  case zeroLo => exact hkeep (zeroLo s) rfl nofun nofun
  case unmask =>
    obtain ⟨hcode, hdur⟩ := hcmd nofun
    rw [unmask_withLatches hcode hdur]
    exact hkeep _ rfl nofun nofun

/-- PLAY at IDLE writes both command latches before anything reads them (R132). -/
theorem performPlay_similar (code : Code) (dur : Duration) {s : State} (l : Latches) (hp : s.ctrlPc = .idle) :
    (performPlay code dur s).Similar (performPlay code dur (s.withLatches l)) := by
  have ht : (s.withLatches l).timerOn = s.timerOn := rfl
  simp only [performPlay, ht]
  split
  · exact State.similar_of_idle l hp
  · split
    · exact State.similar_of_idle { l with cmdCode := code, cmdDur := dur } hp
    · exact ⟨rfl, Latches.agreeAt_mask rfl rfl⟩

/-! ### Outcomes -/

/-- Two outcomes that tell no more than similar states do: similar next states, or the same stop. -/
inductive SimilarOutcome : Host.Outcome State Fault Refusal → Host.Outcome State Fault Refusal → Prop
  | next {s t : State} (h : s.Similar t) : SimilarOutcome (.next s) (.next t)
  | fault (f : Fault) : SimilarOutcome (.fault f) (.fault f)

/-- ISSUE of one word, whose meaning is one that keeps states at IDLE similar. -/
theorem issue_similar {w : Word} {p : State → State} {s : State} {l : Latches} (h : s.Similar (s.withLatches l))
    (hp : ∀ u : State, u.ctrlPc = .idle → (p u).Similar (p (u.withLatches l))) :
    SimilarOutcome (issue w p s) (issue w p (s.withLatches l)) := by
  cases hf : s.fault with
  | some f =>
    rw [issue_halted hf, issue_halted (s := s.withLatches l) hf]
    exact .fault _
  | none =>
    by_cases hb : s.ctrlPc = .idle
    · rw [issue_idle hf hb, issue_idle (s := s.withLatches l) hf hb]
      exact .next (hp (s.emit (.cmd w)) hb)
    · rw [issue_busy hf hb, issue_busy (s := s.withLatches l) hf hb]
      exact .next (h.keep rfl id id)

theorem exec_similar (i : Instr) {s : State} {l : Latches} (h : s.Similar (s.withLatches l)) :
    SimilarOutcome (exec i s) (exec i (s.withLatches l)) := by
  cases i with
  | init => exact issue_similar h fun u hu => State.similar_of_idle (s := performInit u) l hu
  | play code dur => exact issue_similar h fun u hu => performPlay_similar code dur l hu

theorem hostStep_similar {s : State} {l : Latches} (h : s.Similar (s.withLatches l)) :
    SimilarOutcome (hostStep s) (hostStep (s.withLatches l)) := by
  have hprog : (s.withLatches l).hostProg = s.hostProg := rfl
  simp only [hostStep, State.takeWord, hprog]
  cases s.hostProg with
  | nil => exact .fault _
  | cons w rest =>
    have ht := h.keep (s' := { s with hostProg := rest, hostWait := some w }) rfl id id
    cases hd : decode w with
    | ok i => simp only [hd]; exact exec_similar i ht
    | illegal v => simp only [hd]; exact issue_similar ht fun u hu => State.similar_of_idle (s := u.raise illegalCommand v) l hu

theorem agentStep_similar (c : Config) (a : Agent) {s : State} {l : Latches} (h : s.Similar (s.withLatches l)) :
    SimilarOutcome (agentStep c a s) (agentStep c a (s.withLatches l)) := by
  cases a with
  | host => exact hostStep_similar h
  | ctrl => exact .next (ctrlStep_similar c h)
  | tick => exact .next (h.keep (s' := tick c s) rfl id id)

theorem stepWith_similar (c : Config) {s t : State} (h : s.Similar t) :
    SimilarOutcome (stepWith c s) (stepWith c t) := by
  obtain ⟨l, rfl⟩ : ∃ l, t = s.withLatches l := ⟨_, h.frame⟩
  cases hf : s.fault with
  | some f =>
    rw [stepWith_halted hf, stepWith_halted (s := s.withLatches l) hf]
    exact .fault _
  | none =>
    have hf' : (s.withLatches l).fault = none := hf
    simp only [stepWith, hf, hf', chooseAgent_withLatches h.enabled]
    cases hc : chooseAgent s with
    | none => exact .fault _
    | some p =>
      obtain ⟨-, sch, n, hp⟩ := chooseAgent_cases (a := p.1) (t := p.2) hc
      exact agentStep_similar c p.1 (h.keep (by rw [hp]; rfl) (by rw [hp]; exact id) (by rw [hp]; exact id))

/-- Runs from similar states, under the same schedule. -/
theorem runWith_similar (c : Config) (k : Nat) {s t : State} (h : s.Similar t) :
    SimilarOutcome (runWith c k s) (runWith c k t) := by
  induction k generalizing s t with
  | zero => exact .next h
  | succ k ih =>
    simp only [runWith]
    have hstep := stepWith_similar c h
    generalize stepWith c s = o, stepWith c t = o' at hstep ⊢
    cases hstep with
    | next hu => exact ih hu
    | fault f => exact .fault f

/-- Settles O55: states at IDLE that differ in their latches are similar, so their runs have similar outcomes. -/
theorem latchesAreUnobservableAtIdle : Obligations.LatchesAreUnobservableAtIdle := by
  intro c k s t hidle ht
  have h : s.Similar t := ⟨ht, by rw [hidle]; exact Latches.agreeAt_idle _ _⟩
  have hrun := runWith_similar c k h
  refine ⟨fun u hu => ?_, fun f hf => ?_⟩
  · rw [hu] at hrun
    generalize runWith c k t = o at hrun ⊢
    cases hrun with
    | next hv => exact ⟨_, rfl, hv.observed⟩
  · rw [hf] at hrun
    generalize runWith c k t = o at hrun ⊢
    cases hrun with
    | fault => rfl

end Sys2Proof.Machine
end

section
/-! PROOFS. The memory rules of 20_memory.md: the ROM lookups (R46 to R48), and that every step is one atomic step of an
enabled agent (R57). -/

namespace Sys2Proof.Config

/-! ### What a configuration's tables hold (R45, R47) -/

theorem sineTable_spec (c : Config) :
    c.data.sineTable.length = 128 ∧ ∀ v ∈ c.data.sineTable, v ≤ 127 :=
  have ⟨hsine, _⟩ := c.data.wf_iff.mp c.ok
  c.data.sineOk_iff.mp hsine

theorem freqMap_spec (c : Config) :
    c.data.freqMap.length = 12 ∧ (∀ e ∈ c.data.freqMap, e.1 ≤ 127 ∧ e.2 ≤ 127) ∧
      c.data.freqMap[5]? = some (87, 50) :=
  have ⟨_, hfreq, _⟩ := c.data.wf_iff.mp c.ok
  c.data.freqOk_iff.mp hfreq

end Sys2Proof.Config

namespace Sys2Proof.Machine

/-! ### The ROM lookups -/

/-- A table value of 0..127 loses nothing in 7 bits. -/
theorem toNat_ofNat_seven {v : Nat} (h : v ≤ 127) : (BitVec.ofNat 7 v).toNat = v :=
  (BitVec.toNat_ofNat v 7).trans (Nat.mod_eq_of_lt (Nat.lt_succ_of_le h))

/-- A 7-bit index is always inside the Sine Table (R52), so the lookup never falls back on a default (R46). -/
theorem sineTable_getElem?_toNat (c : Config) (i : Sample) :
    c.data.sineTable[i.toNat]? = some (sine c i).toNat := by
  obtain ⟨hlen, hle⟩ := c.sineTable_spec
  have hi : i.toNat < c.data.sineTable.length := i.isLt.trans_eq hlen.symm
  rw [sine, List.getD_eq_getElem _ _ hi, toNat_ofNat_seven (hle _ (List.getElem_mem hi)), List.getElem?_eq_getElem hi]

/-- A digit code is always inside the Frequency Map (R52), so the lookup never falls back on a default (R48). -/
theorem freqMap_getElem?_val (c : Config) (k : Fin 12) :
    c.data.freqMap[k.val]? = some ((fmap c k).1.toNat, (fmap c k).2.toNat) := by
  obtain ⟨hlen, hle, -⟩ := c.freqMap_spec
  have hk : k.val < c.data.freqMap.length := k.isLt.trans_eq hlen.symm
  obtain ⟨hhi, hlo⟩ := hle _ (List.getElem_mem hk)
  simp only [fmap, List.getD_eq_getElem _ _ hk, toNat_ofNat_seven hhi, toNat_ofNat_seven hlo,
    List.getElem?_eq_getElem hk]

/-- The one entry that the source fixes (R47). -/
theorem fmap_five (c : Config) : fmap c 5 = (87#7, 50#7) := by
  obtain ⟨-, -, hfive⟩ := c.freqMap_spec
  have h : ((fmap c 5).1.toNat, (fmap c 5).2.toNat) = (87, 50) :=
    Option.some.inj ((freqMap_getElem?_val c 5).symm.trans hfive)
  obtain ⟨hhi, hlo⟩ := Prod.mk.inj h
  exact Prod.ext (BitVec.eq_of_toNat_eq hhi) (BitVec.eq_of_toNat_eq hlo)

/-- Settles O8: R12's checks keep every index inside its table and every entry inside 7 bits. -/
theorem romLookups : Obligations.RomLookups :=
  fun c => ⟨sineTable_getElem?_toNat c, freqMap_getElem?_val c, fmap_five c⟩

/-! ### An enabled agent has a step -/

/-- With no fault recorded every word that is issued has a next state, whatever it means. -/
theorem issue_exists_next (w : Word) (p : State → State) {s : State} (h : s.fault = none) :
    ∃ t, issue w p s = .next t := by
  by_cases hb : s.ctrlPc = .idle
  · exact ⟨_, issue_idle h hb⟩
  · exact ⟨_, issue_busy h hb⟩

theorem exec_exists_next (i : Instr) {s : State} (h : s.fault = none) : ∃ t, exec i s = .next t := by
  cases i with
  | init => exact issue_exists_next _ _ h
  | play code dur => exact issue_exists_next _ _ h

/-- A HOST that has a next word issues it, a legal or an ILLEGAL one. -/
theorem hostStep_exists_next {s : State} (hf : s.fault = none) (hp : s.hostProg ≠ []) :
    ∃ t, hostStep s = .next t := by
  obtain ⟨w, rest, hw⟩ := List.exists_cons_of_ne_nil hp
  simp only [hostStep, State.takeWord, hw]
  cases decode w with
  | ok i => exact exec_exists_next i hf
  | illegal v => exact issue_exists_next _ _ hf

theorem hostProg_ne_nil_of_enabled {s : State} (h : s.enabled .host = true) : s.hostProg ≠ [] := by
  simp only [State.enabled, State.hostReady, Bool.and_eq_true, Bool.not_eq_true', List.isEmpty_eq_false_iff] at h
  obtain ⟨-, -, hprog⟩ := h
  exact hprog

theorem agentStep_exists_next (c : Config) {s : State} {a : Agent} (h : s.enabled a = true) :
    ∃ t, agentStep c a s = .next t := by
  cases a with
  | host => exact hostStep_exists_next (fault_none_of_enabled h) (hostProg_ne_nil_of_enabled h)
  | ctrl => exact ⟨_, rfl⟩
  | tick => exact ⟨_, rfl⟩

/-! ### A step of the machine is the step of the chosen agent -/

theorem chooseAgent_eq_none_iff (s : State) : chooseAgent s = none ↔ ∀ a, s.enabled a = false := by
  refine ⟨chooseAgent_none, fun h => Option.eq_none_iff_forall_ne_some.mpr fun (a, t) hc => ?_⟩
  obtain ⟨ha, -⟩ := chooseAgent_cases hc
  exact Bool.false_ne_true ((h a).symm.trans ha)

theorem stepWith_of_chooseAgent (c : Config) {s t : State} {a : Agent} (hf : s.fault = none)
    (hc : chooseAgent s = some (a, t)) : stepWith c s = agentStep c a t := by
  simp [stepWith, hf, hc]

/-- Where an agent is enabled, the chosen one is enabled and takes its step. -/
theorem stepWith_exists_next (c : Config) {s : State} {a : Agent} (h : s.enabled a = true) :
    ∃ t, stepWith c s = .next t := by
  have hf : s.fault = none := fault_none_of_enabled h
  cases hc : chooseAgent s with
  | none => exact absurd (((chooseAgent_eq_none_iff s).mp hc a).symm.trans h) Bool.false_ne_true
  | some p =>
    obtain ⟨b, u⟩ := p
    obtain ⟨hb, sch, n, rfl⟩ := chooseAgent_cases hc
    rw [stepWith_of_chooseAgent c hf hc]
    exact agentStep_exists_next c ((enabled_schedule s sch n b).trans hb)

/-- With no fault recorded and nobody enabled the machine stops (log entry 7). -/
theorem stepWith_noEnabledStep (c : Config) {s : State} (hf : s.fault = none) (h : ∀ a, s.enabled a = false) :
    stepWith c s = .fault .noEnabledStep := by
  simp [stepWith, hf, (chooseAgent_eq_none_iff s).mpr h]

/-- Settles O20: a next state comes from the chosen agent, which is enabled and therefore has a step. -/
theorem stepIsOneEnabledAgent : Obligations.StepIsOneEnabledAgent :=
  fun c _ => ⟨fun _ ht => (stepWith_cases ht).2, fun ⟨_, ha⟩ => stepWith_exists_next c ha,
    fun _ hf => stepWith_halted hf, stepWith_noEnabledStep c⟩

end Sys2Proof.Machine
end

section
/-! PROOFS. The encoding rules of 30_encoding.md: the decoder and the encoder (R63 to R69), the class of a PLAY code (R70),
the assembler and its pseudo-instructions (R73 to R75). -/

namespace Sys2Proof

/-! ### The decoder, one equation for each case of R67 -/

@[simp] theorem encode_init : encode .init = 0x01000000#32 := by decide

@[simp] theorem decode_init : decode 0x01000000#32 = .ok .init := if_pos rfl

/-- INIT's word has the opcode 1, so R67's first case never hides a PLAY. -/
theorem ne_init_of_opField {w : Word} (h : opField w = 0x02#8) : w ≠ 0x01000000#32 := by
  rintro rfl
  exact absurd h (by decide)

theorem decode_of_opField {w : Word} (h : opField w = 0x02#8) :
    decode w = .ok (.play (codeField w) (durField w)) := by
  rw [decode, if_neg (ne_init_of_opField h), if_pos h]

theorem decode_of_no_opcode {w : Word} (hinit : w ≠ 0x01000000#32) (hop : opField w ≠ 0x02#8) :
    decode w = .illegal w := by
  rw [decode, if_neg hinit, if_neg hop]

/-- The three things that a word can be (R67). -/
theorem decode_cases (w : Word) :
    (w = 0x01000000#32 ∧ decode w = .ok .init) ∨
      (opField w = 0x02#8 ∧ decode w = .ok (.play (codeField w) (durField w))) ∨
      (w ≠ 0x01000000#32 ∧ opField w ≠ 0x02#8 ∧ decode w = .illegal w) := by
  by_cases hinit : w = 0x01000000#32
  · exact .inl ⟨hinit, hinit ▸ decode_init⟩
  · by_cases hop : opField w = 0x02#8
    · exact .inr (.inl ⟨hop, decode_of_opField hop⟩)
    · exact .inr (.inr ⟨hinit, hop, decode_of_no_opcode hinit hop⟩)

/-! ### Decoding and encoding are inverse -/

@[simp] theorem decode_encode (i : Instr) : decode (encode i) = .ok i := by
  cases i with
  | init => rw [encode_init, decode_init]
  | play code dur =>
    have hop : opField (encode (.play code dur)) = 0x02#8 := opField_packWord _ _ _
    rw [decode_of_opField hop, encode, codeField_packWord, durField_packWord]

theorem encode_of_decode {w : Word} {i : Instr} (h : decode w = .ok i) : encode i = w := by
  obtain ⟨hw, hd⟩ | ⟨hop, hd⟩ | ⟨-, -, hd⟩ := decode_cases w
  · obtain rfl := Decoded.ok.inj (h.symm.trans hd)
    exact encode_init.trans hw.symm
  · obtain rfl := Decoded.ok.inj (h.symm.trans hd)
    rw [encode, ← hop, packWord_fields]
  · cases h.symm.trans hd

theorem decode_eq_ok_iff {w : Word} {i : Instr} : decode w = .ok i ↔ encode i = w :=
  ⟨encode_of_decode, fun h => h ▸ decode_encode i⟩

theorem decode_eq_illegal_iff {w : Word} :
    decode w = .illegal w ↔ w ≠ 0x01000000#32 ∧ opField w ≠ 0x02#8 := by
  refine ⟨fun h => ⟨?_, fun hop => ?_⟩, fun ⟨hinit, hop⟩ => decode_of_no_opcode hinit hop⟩
  · rintro rfl
    cases h.symm.trans decode_init
  · cases h.symm.trans (decode_of_opField hop)

/-- Settles O2: `decode` answers with a command exactly on that command's word, and with nothing else but ILLEGAL. -/
theorem decodeEncodeAgree : Obligations.DecodeEncodeAgree := by
  refine ⟨fun i _ => decode_encode i, fun _ _ => encode_of_decode, fun w => ⟨fun h i hi => ?_, fun h => ?_⟩⟩
  · cases h.symm.trans (decode_eq_ok_iff.mpr hi)
  · obtain ⟨-, hd⟩ | ⟨-, hd⟩ | ⟨-, -, hd⟩ := decode_cases w
    · exact absurd (encode_of_decode hd) (h _)
    · exact absurd (encode_of_decode hd) (h _)
    · exact hd

/-! ### The opcode table (R69) -/

theorem decode_eq_init_iff {w : Word} : decode w = .ok .init ↔ w = 0x01000000#32 := by
  rw [decode_eq_ok_iff, encode_init, eq_comm]

theorem exists_decode_eq_play_iff {w : Word} :
    (∃ code dur, decode w = .ok (.play code dur)) ↔ opField w = 0x02#8 := by
  refine ⟨fun ⟨code, dur, h⟩ => ?_, fun h => ⟨_, _, decode_of_opField h⟩⟩
  rw [← encode_of_decode h]
  exact opField_packWord _ _ _

/-- Settles O4: INIT's row holds the one word 0x01000000 and PLAY's row the words of opcode 2, which are R67's cases. -/
theorem decoderFollowsOpcodeTable : Obligations.DecoderFollowsOpcodeTable := by
  intro w
  simp only [opcodeTable, List.forall_mem_cons, List.not_mem_nil, false_imp_iff, implies_true, and_true,
    initRow_covers, playRow_covers, decide_eq_true_eq, decide_eq_false_iff_not]
  exact ⟨decode_eq_init_iff, exists_decode_eq_play_iff, decode_eq_illegal_iff,
    fun ⟨hinit, hop⟩ => ne_init_of_opField hop hinit⟩

/-! ### The fields of a word as numbers (R63, R65) -/

theorem opField_toNat (w : Word) : (opField w).toNat = w.toNat / 2 ^ 24 := by
  have hw : w.toNat < 2 ^ 32 := w.isLt
  rw [opField, BitVec.extractLsb'_toNat, Nat.shiftRight_eq_div_pow]
  omega

theorem codeField_toNat (w : Word) : (codeField w).toNat = w.toNat / 2 ^ 16 % 256 := by
  rw [codeField, BitVec.extractLsb'_toNat, Nat.shiftRight_eq_div_pow]

theorem durField_toNat (w : Word) : (durField w).toNat = w.toNat % 2 ^ 16 := by
  rw [durField, BitVec.extractLsb'_toNat, Nat.shiftRight_zero]

/-- Bit 23 is the sign of the code. -/
theorem codeField_msb (w : Word) : (codeField w).msb = w.getLsbD 23 := by
  simp [BitVec.msb_eq_getLsbD_last, codeField]

theorem codeField_toInt (w : Word) :
    (codeField w).toInt =
      if w.getLsbD 23 = true then ((w.toNat / 2 ^ 16 % 256 : Nat) : Int) - 256
      else ((w.toNat / 2 ^ 16 % 256 : Nat) : Int) := by
  rw [BitVec.toInt_eq_msb_cond, codeField_msb, codeField_toNat]
  rfl

theorem opField_eq_iff_toNat (w : Word) (op : BitVec 8) : opField w = op ↔ w.toNat / 2 ^ 24 = op.toNat := by
  rw [← BitVec.toNat_inj, opField_toNat]

/-- Settles O3: R67's conditions on the word and on its opcode field are the conditions on the word's value. -/
theorem decodeIsTotal : Obligations.DecodeIsTotal := by
  intro w
  have hinit : w = 0x01000000#32 ↔ w.toNat = 0x01000000 := BitVec.toNat_inj.symm
  have hop : opField w = 0x02#8 ↔ w.toNat / 2 ^ 24 = 0x02 := opField_eq_iff_toNat w 0x02#8
  exact ⟨fun h => decode_eq_init_iff.mpr (hinit.mpr h),
    fun h => ⟨_, _, decode_of_opField (hop.mpr h), codeField_toInt w, durField_toNat w⟩,
    fun hi ho => decode_of_no_opcode (hinit.not.mpr hi) (hop.not.mpr ho)⟩

/-- The word `{OP, CODE, DUR}` as a number: its fields do not overlap, so `|` adds them (R63, R74). -/
theorem packWord_toNat (op : BitVec 8) (code : Code) (dur : Duration) :
    (packWord op code dur).toNat = op.toNat * 2 ^ 24 + code.toNat * 2 ^ 16 + dur.toNat := by
  have hop := opField_toNat (packWord op code dur)
  have hcode := codeField_toNat (packWord op code dur)
  have hdur := durField_toNat (packWord op code dur)
  rw [opField_packWord] at hop
  rw [codeField_packWord] at hcode
  rw [durField_packWord] at hdur
  omega

/-! ### Digit literals (R73) -/

/-- A digit literal stands for its place in `0123456789*#`. -/
theorem digitValue_eq_some_iff (ch : Char) (d : Nat) :
    digitValue ch = some d ↔ "0123456789*#".toList[d]? = some ch := by
  constructor
  · intro h
    have digits : ∀ k < 10, "0123456789*#".toList[k]? = some (Char.ofNat ('0'.toNat + k)) := by decide
    unfold digitValue at h
    split at h
    · next hrange =>
      obtain ⟨hlo, hhi⟩ := hrange
      obtain rfl := Option.some.inj h
      have hlt : ch.toNat - '0'.toNat < 10 := Nat.sub_lt_left_of_lt_add hlo (Nat.lt_succ_of_le hhi)
      rw [digits _ hlt, Nat.add_sub_cancel' hlo, Char.ofNat_toNat]
    · split at h
      · next hstar => subst hstar; cases h; rfl
      · split at h
        · next hhash => subst hhash; cases h; rfl
        · cases h
  · have values : ∀ p ∈ "0123456789*#".toList.zipIdx, digitValue p.1 = some p.2 := by decide
    exact fun h => values (ch, d) (List.mk_mem_zipIdx_iff_getElem?.mpr h)

theorem digitValue_le {ch : Char} {d : Nat} (h : digitValue ch = some d) : d ≤ 11 := by
  obtain ⟨hlt, -⟩ := List.getElem?_eq_some_iff.mp ((digitValue_eq_some_iff ch d).mp h)
  exact Nat.le_of_lt_succ hlt

end Sys2Proof

namespace Sys2Proof.Config

/-! ### What R12 says of the reserved codes -/

theorem codes_spec (c : Config) :
    (∀ v ∈ [c.data.codeBeepHigh, c.data.codeBeepLow, c.data.codeChirpDown], -128 ≤ v ∧ v < 0 ∧ v ≠ -11 ∧ v ≠ -1) ∧
      (c.data.codeBeepHigh ≠ c.data.codeBeepLow ∧ c.data.codeBeepHigh ≠ c.data.codeChirpDown ∧
        c.data.codeBeepLow ≠ c.data.codeChirpDown) :=
  have ⟨_, _, _, hcodes, _⟩ := c.data.wf_iff.mp c.ok
  c.data.codesOk_iff.mp hcodes

end Sys2Proof.Config

namespace Sys2Proof.Machine

/-! ### Codes by their values -/

/-- A value of -128..127 loses nothing in a code. -/
theorem toInt_ofInt_code {v : Int} (hlo : -128 ≤ v) (hhi : v ≤ 127) : (BitVec.ofInt 8 v).toInt = v :=
  BitVec.toInt_ofInt_eq_self (by decide) hlo (Int.lt_add_one_of_le hhi)

theorem eq_ofInt_iff_toInt {code : Code} {v : Int} (hlo : -128 ≤ v) (hhi : v ≤ 127) :
    code = BitVec.ofInt 8 v ↔ code.toInt = v := by
  rw [← BitVec.toInt_inj, toInt_ofInt_code hlo hhi]

/-- A reserved code of the configuration is a negative value of -128..127. -/
theorem eq_reserved_iff_toInt (c : Config) (code : Code) {v : Int}
    (hv : v ∈ [c.data.codeBeepHigh, c.data.codeBeepLow, c.data.codeChirpDown]) :
    code = BitVec.ofInt 8 v ↔ code.toInt = v := by
  obtain ⟨hlo, hneg, -⟩ := c.codes_spec.1 v hv
  exact eq_ofInt_iff_toInt hlo (by omega)

/-! ### The class of a code (R70) -/

/-- `class(code)` as the conditions on the code's value. -/
theorem codeClass_eq_by_toInt (c : Config) (code : Code) :
    codeClass c code =
      if h : 0 ≤ code.toInt ∧ code.toInt ≤ 11 then .digit ⟨code.toInt.toNat, by omega⟩
      else if code.toInt = c.data.codeBeepHigh then .beepHigh
      else if code.toInt = c.data.codeBeepLow then .beepLow
      else if code.toInt = -11 then .chirpUp
      else if code.toInt = c.data.codeChirpDown then .chirpDown
      else .silence := by
  have hhigh : code = codeBeepHigh c ↔ code.toInt = c.data.codeBeepHigh := eq_reserved_iff_toInt c code (by simp)
  have hlow : code = codeBeepLow c ↔ code.toInt = c.data.codeBeepLow := eq_reserved_iff_toInt c code (by simp)
  have hup : code = codeChirpUp ↔ code.toInt = -11 := eq_ofInt_iff_toInt (by decide) (by decide)
  have hdown : code = codeChirpDown c ↔ code.toInt = c.data.codeChirpDown := eq_reserved_iff_toInt c code (by simp)
  simp only [codeClass, hhigh, hlow, hup, hdown]

/-- The values that make up a class. -/
def InClass (c : Config) (v : Int) : CodeClass → Prop
  | .digit k => v = (k.val : Int)
  | .beepHigh => v = c.data.codeBeepHigh
  | .beepLow => v = c.data.codeBeepLow
  | .chirpUp => v = -11
  | .chirpDown => v = c.data.codeChirpDown
  | .silence => (v < 0 ∨ 11 < v) ∧ v ∉ [c.data.codeBeepHigh, c.data.codeBeepLow, -11, c.data.codeChirpDown]

theorem inClass_codeClass (c : Config) (code : Code) : InClass c code.toInt (codeClass c code) := by
  rw [codeClass_eq_by_toInt]
  split_ifs with hdigit hhigh hlow hup hdown
  · exact (Int.toNat_of_nonneg hdigit.1).symm
  · exact hhigh
  · exact hlow
  · exact hup
  · exact hdown
  · exact ⟨by omega, by simp [hhigh, hlow, hup, hdown]⟩

/-- R12 keeps the reserved codes apart from each other, from -11 and from the digits, so a value fixes its class. -/
theorem codeClass_of_inClass (c : Config) (code : Code) {x : CodeClass} (h : InClass c code.toInt x) :
    codeClass c code = x := by
  obtain ⟨hcodes, hHighLow, hHighDown, hLowDown⟩ := c.codes_spec
  obtain ⟨-, hHigh, hHighUp, -⟩ := hcodes c.data.codeBeepHigh (by simp)
  obtain ⟨-, hLow, hLowUp, -⟩ := hcodes c.data.codeBeepLow (by simp)
  obtain ⟨-, hDown, hDownUp, -⟩ := hcodes c.data.codeChirpDown (by simp)
  rw [codeClass_eq_by_toInt]
  cases x with
  | digit k =>
    have hk : code.toInt = (k.val : Int) := h
    rw [dif_pos (by omega)]
    exact congrArg CodeClass.digit (Fin.ext (by simp [hk]))
  | beepHigh =>
    have hv : code.toInt = c.data.codeBeepHigh := h
    rw [dif_neg (by omega), if_pos hv]
  | beepLow =>
    have hv : code.toInt = c.data.codeBeepLow := h
    rw [dif_neg (by omega), if_neg (by omega), if_pos hv]
  | chirpUp =>
    have hv : code.toInt = -11 := h
    rw [dif_neg (by omega), if_neg (by omega), if_neg (by omega), if_pos hv]
  | chirpDown =>
    have hv : code.toInt = c.data.codeChirpDown := h
    rw [dif_neg (by omega), if_neg (by omega), if_neg (by omega), if_neg (by omega), if_pos hv]
  | silence =>
    obtain ⟨hrange, hnot⟩ := h
    simp only [List.mem_cons, List.not_mem_nil, or_false, not_or] at hnot
    obtain ⟨nHigh, nLow, nUp, nDown⟩ := hnot
    rw [dif_neg (by omega), if_neg nHigh, if_neg nLow, if_neg nUp, if_neg nDown]

theorem codeClass_eq_iff (c : Config) (code : Code) (x : CodeClass) :
    codeClass c code = x ↔ InClass c code.toInt x :=
  ⟨fun h => h ▸ inClass_codeClass c code, codeClass_of_inClass c code⟩

/-- No reserved code is -1, so PAUSE and NOP are silent. -/
theorem inClass_neg_one (c : Config) : InClass c (-1) .silence := by
  obtain ⟨hcodes, -⟩ := c.codes_spec
  obtain ⟨-, -, -, hHigh⟩ := hcodes c.data.codeBeepHigh (by simp)
  obtain ⟨-, -, -, hLow⟩ := hcodes c.data.codeBeepLow (by simp)
  obtain ⟨-, -, -, hDown⟩ := hcodes c.data.codeChirpDown (by simp)
  refine ⟨.inl (by decide), ?_⟩
  simp [hHigh.symm, hLow.symm, hDown.symm]

/-- Settles O9: every class is a set of values, and -1 is in SILENCE's. -/
theorem codeClassByValue : Obligations.CodeClassByValue := fun c code =>
  ⟨fun k => codeClass_eq_iff c code (.digit k), codeClass_eq_iff c code .beepHigh, codeClass_eq_iff c code .beepLow,
    codeClass_eq_iff c code .chirpUp, codeClass_eq_iff c code .chirpDown, codeClass_eq_iff c code .silence,
    fun h => codeClass_of_inClass c code (h ▸ inClass_neg_one c)⟩

/-! ### The assembler (R73) -/

theorem assembleCommand_eq_none_iff (c : Config) (cmd : Command) :
    assembleCommand c cmd = none ↔ cmd.wf = false := by
  simp [assembleCommand]

theorem assembleCommand_of_wf (c : Config) {cmd : Command} (h : cmd.wf = true) :
    assembleCommand c cmd = some (encode (expandCommand c cmd)) :=
  if_pos h

theorem assembleCommand_eq_some_iff (c : Config) (cmd : Command) (w : Word) :
    assembleCommand c cmd = some w ↔ cmd.wf = true ∧ encode (expandCommand c cmd) = w := by
  simp [assembleCommand]

@[simp] theorem durationOk_iff (ms : Nat) : durationOk ms = true ↔ ms ≤ 65535 := decide_eq_true_iff

@[simp] theorem durationOk_eq_false_iff (ms : Nat) : durationOk ms = false ↔ 65535 < ms := by
  simp [durationOk]

theorem toNat_ofNat_duration {ms : Nat} (h : ms ≤ 65535) : (BitVec.ofNat 16 ms).toNat = ms :=
  (BitVec.toNat_ofNat ms 16).trans (Nat.mod_eq_of_lt (Nat.lt_succ_of_le h))

theorem codeOf_literal {ch : Char} {d : Nat} (h : digitValue ch = some d) :
    codeOf (.literal ch) = BitVec.ofInt 8 d := by
  rw [codeOf, h, Option.getD_some, BitVec.ofInt_natCast]

/-- The word of a PLAY as a number, from the values that its operands are made of. -/
theorem encode_play_toNat (v : Int) {ms : Nat} (hms : ms ≤ 65535) :
    ((encode (.play (BitVec.ofInt 8 v) (BitVec.ofNat 16 ms))).toNat : Int) =
      0x02000000 + v % 256 * 2 ^ 16 + ms := by
  have hcode : ((BitVec.ofInt 8 v).toNat : Int) = v % 256 := by
    rw [BitVec.toNat_ofInt]
    exact Int.toNat_of_nonneg (Int.emod_nonneg v (by decide))
  rw [encode, packWord_toNat, toNat_ofNat_duration hms, Nat.cast_add, Nat.cast_add, Nat.cast_mul, Nat.cast_mul, hcode]
  rfl

theorem encode_play_eq_iff (v : Int) {ms : Nat} (hms : ms ≤ 65535) (w : Word) :
    encode (.play (BitVec.ofInt 8 v) (BitVec.ofNat 16 ms)) = w ↔
      (w.toNat : Int) = 0x02000000 + v % 256 * 2 ^ 16 + ms := by
  rw [← encode_play_toNat v hms, Nat.cast_inj, BitVec.toNat_inj, eq_comm]

/-- A well-formed command that stands for the PLAY of a value and a duration has the word of that PLAY. -/
theorem exists_assembled_play (c : Config) {cmd : Command} (hwf : cmd.wf = true) {v : Int} {ms : Nat}
    (hms : ms ≤ 65535) (hexp : expandCommand c cmd = .play (BitVec.ofInt 8 v) (BitVec.ofNat 16 ms)) :
    ∃ w : Word, assembleCommand c cmd = some w ∧ (w.toNat : Int) = 0x02000000 + v % 256 * 2 ^ 16 + ms :=
  ⟨_, assembleCommand_of_wf c hwf, hexp ▸ encode_play_toNat v hms⟩

/-- That word decodes to the value and the duration. -/
theorem exists_decoded_play (c : Config) {cmd : Command} (hwf : cmd.wf = true) {v : Int} {ms : Nat}
    (hlo : -128 ≤ v) (hhi : v ≤ 127) (hms : ms ≤ 65535)
    (hexp : expandCommand c cmd = .play (BitVec.ofInt 8 v) (BitVec.ofNat 16 ms)) :
    ∃ (w : Word) (code : Code) (dur : Duration), assembleCommand c cmd = some w ∧
      decode w = .ok (.play code dur) ∧ code.toInt = v ∧ dur.toNat = ms :=
  ⟨_, _, _, assembleCommand_of_wf c hwf, hexp ▸ decode_encode _, toInt_ofInt_code hlo hhi, toNat_ofNat_duration hms⟩

theorem assemble_play_int_iff (c : Config) (v : Int) (ms : Nat) (w : Word) :
    assembleCommand c (.play (.int v) ms) = some w ↔
      (-128 ≤ v ∧ v ≤ 127) ∧ ms ≤ 65535 ∧ (w.toNat : Int) = 0x02000000 + v % 256 * 2 ^ 16 + ms := by
  have hwf : (Command.play (.int v) ms).wf = true ↔ (-128 ≤ v ∧ v ≤ 127) ∧ ms ≤ 65535 := by
    simp [Command.wf, CodeOperand.wf]
  rw [assembleCommand_eq_some_iff, hwf, and_assoc]
  exact and_congr_right fun _ => and_congr_right fun hms => encode_play_eq_iff v hms w

theorem wf_literal_iff (ch : Char) (ms : Nat) :
    (Command.play (.literal ch) ms).wf = true ↔ (∃ d, digitValue ch = some d) ∧ ms ≤ 65535 := by
  simp [Command.wf, CodeOperand.wf, Option.isSome_iff_exists]

theorem encode_play_literal_toNat (c : Config) {ch : Char} {d ms : Nat} (hd : digitValue ch = some d)
    (hms : ms ≤ 65535) :
    (encode (expandCommand c (.play (.literal ch) ms))).toNat = 0x02000000 + d * 2 ^ 16 + ms := by
  have hle : d ≤ 11 := digitValue_le hd
  have hword := encode_play_toNat d hms
  rw [expandCommand, codeOf_literal hd]
  omega

theorem assemble_play_literal_iff (c : Config) (ch : Char) (ms : Nat) (w : Word) :
    assembleCommand c (.play (.literal ch) ms) = some w ↔
      ∃ d : Nat, "0123456789*#".toList[d]? = some ch ∧ ms ≤ 65535 ∧ w.toNat = 0x02000000 + d * 2 ^ 16 + ms := by
  simp only [assembleCommand_eq_some_iff, wf_literal_iff, ← digitValue_eq_some_iff]
  constructor
  · rintro ⟨⟨⟨d, hd⟩, hms⟩, rfl⟩
    exact ⟨d, hd, hms, encode_play_literal_toNat c hd hms⟩
  · rintro ⟨d, hd, hms, hw⟩
    exact ⟨⟨⟨d, hd⟩, hms⟩, BitVec.eq_of_toNat_eq ((encode_play_literal_toNat c hd hms).trans hw.symm)⟩

/-- DIGIT is the PLAY of its literal (R74). -/
theorem assemble_digit (c : Config) (ch : Char) (ms : Nat) :
    assembleCommand c (.digit ch ms) = assembleCommand c (.play (.literal ch) ms) := rfl

theorem assemble_eq_none_iff_of_duration (c : Config) {cmd : Command} {ms : Nat} (h : cmd.wf = durationOk ms) :
    assembleCommand c cmd = none ↔ 65535 < ms := by
  rw [assembleCommand_eq_none_iff, h, durationOk_eq_false_iff]

/-- Settles O5: a word is emitted exactly for a well-formed command, and it is the PLAY word of the operands' values. -/
theorem assemblerChecksRanges : Obligations.AssemblerChecksRanges := by
  intro c
  refine ⟨assembleCommand_eq_none_iff c, assemble_play_int_iff c, assemble_play_literal_iff c, assemble_digit c,
    fun ms => ?_, fun v ms hlo hhi hms => ?_, fun ch d ms hd hms => ?_⟩
  · simp only [List.forall_mem_cons, List.not_mem_nil, false_imp_iff, implies_true, and_true]
    refine ⟨?_, ?_, ?_, ?_, ?_⟩ <;> exact assemble_eq_none_iff_of_duration c rfl
  · exact exists_decoded_play c (by simp [Command.wf, CodeOperand.wf, hlo, hhi, hms]) hlo hhi hms rfl
  · have hle : d ≤ 11 := digitValue_le hd
    refine exists_decoded_play c ((wf_literal_iff ch ms).mpr ⟨⟨d, hd⟩, hms⟩) (by omega) (by omega) hms ?_
    rw [expandCommand, codeOf_literal hd]

/-! ### The pseudo-instructions (R74) -/

/-- A beep or CHIRP_DOWN plays its configured code, which R12 keeps inside a code's range. -/
theorem exists_decoded_reserved (c : Config) {cmd : Command} {v : Int} {ms : Nat} (hms : ms ≤ 65535)
    (hwf : cmd.wf = durationOk ms) (hv : v ∈ [c.data.codeBeepHigh, c.data.codeBeepLow, c.data.codeChirpDown])
    (hexp : expandCommand c cmd = .play (BitVec.ofInt 8 v) (BitVec.ofNat 16 ms)) :
    ∃ (w : Word) (code : Code) (dur : Duration), assembleCommand c cmd = some w ∧
      decode w = .ok (.play code dur) ∧ code.toInt = v ∧ dur.toNat = ms := by
  obtain ⟨hlo, hneg, -⟩ := c.codes_spec.1 v hv
  exact exists_decoded_play c (hwf.trans ((durationOk_iff ms).mpr hms)) hlo (by omega) hms hexp

/-- Settles O6: every pseudo-instruction expands to a PLAY, and the word is that PLAY's. -/
theorem pseudoInstructionWords : Obligations.PseudoInstructionWords := by
  intro c ms hms
  have hdur : durationOk ms = true := (durationOk_iff ms).mpr hms
  refine ⟨fun ch d hd => ?_, ?_, rfl, ?_, exists_decoded_reserved c hms rfl (by simp) rfl,
    exists_decoded_reserved c hms rfl (by simp) rfl, exists_decoded_reserved c hms rfl (by simp) rfl⟩
  · have hwf : (Command.digit ch ms).wf = true := (wf_literal_iff ch ms).mpr ⟨⟨d, hd⟩, hms⟩
    exact ⟨_, assembleCommand_of_wf c hwf, encode_play_literal_toNat c hd hms⟩
  · obtain ⟨w, hw, hval⟩ := exists_assembled_play c (cmd := .pause ms) (v := -1) hdur hms rfl
    exact ⟨w, hw, by omega⟩
  · obtain ⟨w, hw, hval⟩ := exists_assembled_play c (cmd := .chirpUp ms) (v := -11) hdur hms rfl
    exact ⟨w, hw, by omega⟩

/-! ### The encoded examples (R75) -/

/-- A text whose lines are well-formed commands assembles to their words. -/
theorem assembleLines_of_commands (c : Config) {lines : List (List Char)} {cmds : List Command}
    (hparse : lines.map parseLine = cmds.map .command) (hwf : ∀ cmd ∈ cmds, cmd.wf = true) :
    assembleLines c lines = some (cmds.map (fun cmd => encode (expandCommand c cmd))) := by
  induction lines generalizing cmds with
  | nil =>
    obtain rfl := List.map_eq_nil_iff.mp hparse.symm
    rfl
  | cons line rest ih =>
    cases cmds with
    | nil => cases hparse
    | cons cmd more =>
      obtain ⟨hline, hrest⟩ := List.cons.inj hparse
      obtain ⟨hcmd, hmore⟩ := List.forall_mem_cons.mp hwf
      simp [assembleLines, hline, assembleCommand_of_wf c hcmd, ih hrest hmore]

/-- The commands of R75's table. -/
def exampleCommands : List Command :=
  [.init, .play (.int 5) 100, .play (.literal '#') 80, .play (.int (-11)) 300, .play (.int (-1)) 50,
    .play (.int 0) 0, .play (.int 127) 65535]

/-- Settles O1: the lines parse to the table's commands, no configured code has a part in their words, and the words
are fixed. -/
theorem encodedExamples : Obligations.EncodedExamples := by
  refine ⟨fun c => ?_, by decide⟩
  exact assembleLines_of_commands c (cmds := exampleCommands) (by decide) (by decide)

/-! ### Issuing an ILLEGAL word (R68) -/

/-- The HOST issues the ILLEGAL word that it takes. -/
theorem hostStep_of_illegal {w : Word} {rest : List Word} {s : State} (hprog : s.hostProg = w :: rest)
    (hd : decode w = .illegal w) :
    hostStep s = issueIllegal w { s with hostProg := rest, hostWait := some w } := by
  simp [hostStep, State.takeWord, hprog, hd]

/-- Settles O16: at IDLE the word is accepted, and its whole meaning is to raise ILLEGAL_COMMAND. -/
theorem illegalWordFaults : Obligations.IllegalWordFaults := by
  intro w rest s hf hidle hprog hd
  have hissue := issue_idle (w := w) (p := (State.raise · illegalCommand w))
    (s := { s with hostProg := rest, hostWait := some w }) hf hidle
  rw [hostStep_of_illegal hprog hd, issueIllegal, hissue]
  simp [State.raise, State.emit, illegalCommand]

end Sys2Proof.Machine
end

section
/-! PROOFS. The tick engine of 40_tick_engine.md: the index function (R79), the blend (R84), one TICK (R78, R81), runs of
TICKs of constant step widths (R83, R89), and that no observation tells accumulators apart that agree mod 1024 (R88). -/

namespace Sys2Proof.Machine

/-! ### The index function (R79) -/

theorem tableIndex_toNat (a : Phase) : (tableIndex a).toNat = (a.toNat + 4) % 1024 / 8 := by
  have hmask : (a.toNat + 4) >>> 3 &&& 0x7F = (a.toNat + 4) / 8 % 128 := by
    rw [Nat.shiftRight_eq_div_pow]
    exact Nat.and_two_pow_sub_one_eq_mod _ 7
  rw [tableIndex, hmask, BitVec.toNat_ofNat]
  omega

theorem tableIndex_toNat_eq_div_mod (a : Phase) : (tableIndex a).toNat = (a.toNat + 4) / 8 % 128 := by
  rw [tableIndex_toNat]
  omega

/-- The index reads the phase mod 1024 alone (R80). -/
theorem tableIndex_congr {a b : Phase} (h : a.toNat ≡ b.toNat [MOD 1024]) : tableIndex a = tableIndex b := by
  have hmod : (a.toNat + 4) % 1024 = (b.toNat + 4) % 1024 := h.add_right 4
  exact BitVec.eq_of_toNat_eq (by rw [tableIndex_toNat, tableIndex_toNat, hmod])

/-- Settles O24: with the index in exact arithmetic, the distance to its entry is the remainder of a division by 8. -/
theorem indexRoundsToNearest : Obligations.IndexRoundsToNearest := by
  refine fun a => ⟨tableIndex_toNat a, ?_⟩
  rw [tableIndex_toNat]
  omega

/-! ### The blend (R84) -/

theorem blend_eq_sub_div (hi lo : Sample) : blend hi lo = hi.toNat + (lo.toNat - lo.toNat / 4) := by
  rw [blend, Nat.shiftRight_eq_div_pow]

theorem blend_le (hi lo : Sample) : blend hi lo ≤ 223 := by
  have hhi : hi.toNat ≤ 127 := Nat.le_of_lt_succ hi.isLt
  have hlo : lo.toNat ≤ 127 := Nat.le_of_lt_succ lo.isLt
  rw [blend_eq_sub_div]
  omega

@[simp] theorem blend_zero_right (hi : Sample) : blend hi 0#7 = hi.toNat := rfl

/-- The blend fits in the 8 bits of `duty`. -/
theorem tickDuty_toNat (c : Config) (s : State) : (s.tickDuty c).toNat = blend (s.sampleHi c) (s.sampleLo c) := by
  have hfit : blend (s.sampleHi c) (s.sampleLo c) < 2 ^ 8 := Nat.lt_of_le_of_lt (blend_le _ _) (by decide)
  rw [State.tickDuty, BitVec.toNat_ofNat, Nat.mod_eq_of_lt hfit]

/-- Settles O25: subtracting the quarter that is rounded down leaves three quarters rounded up, and 223 fits in 8 bits. -/
theorem blendIsExact : Obligations.BlendIsExact := by
  refine ⟨fun hi lo => ⟨blend_le hi lo, ?_⟩, by decide, tickDuty_toNat⟩
  rw [blend_eq_sub_div]
  omega

/-! ### One TICK (R78) -/

theorem advance_toNat (acc : Phase) (step : StepWidth) :
    (advance acc step).toNat = (acc.toNat + step.toNat) % 2 ^ 16 := by
  have hstep : step.toNat < 2 ^ 16 := Nat.lt_trans step.isLt (by decide)
  rw [advance, BitVec.toNat_add, BitVec.toNat_setWidth, Nat.mod_eq_of_lt hstep]

/-- 1024 divides the accumulators' modulus, so their wrap is none of the phase's (R88). -/
theorem advance_modEq (acc : Phase) (step : StepWidth) :
    (advance acc step).toNat ≡ acc.toNat + step.toNat [MOD 1024] := by
  rw [advance_toNat]
  exact Nat.mod_mod_of_dvd _ (by decide)

@[simp] theorem advance_zero (acc : Phase) : advance acc 0#8 = acc := BitVec.add_zero acc

theorem advance_congr {a b : Phase} (h : a.toNat ≡ b.toNat [MOD 1024]) (step : StepWidth) :
    (advance a step).toNat ≡ (advance b step).toNat [MOD 1024] :=
  (advance_modEq a step).trans ((h.add_right _).trans (advance_modEq b step).symm)

/-- A silent low channel keeps its phase (R81). -/
theorem nextAccLo_of_silent {s : State} (h : s.stepLo = 0#8) : s.nextAccLo = s.accLo :=
  if_neg (not_not.mpr h)

theorem nextAccLo_of_sounding {s : State} (h : s.stepLo ≠ 0#8) : s.nextAccLo = advance s.accLo s.stepLo :=
  if_pos h

/-- A silent low channel contributes 0, not the table entry at its phase (R81). -/
theorem sampleLo_of_silent (c : Config) {s : State} (h : s.stepLo = 0#8) : s.sampleLo c = 0#7 :=
  if_neg (not_not.mpr h)

theorem sampleLo_of_sounding (c : Config) {s : State} (h : s.stepLo ≠ 0#8) :
    s.sampleLo c = sine c (tableIndex s.nextAccLo) :=
  if_pos h

/-- A sample is the configured table's entry at the rounded phase. -/
theorem sineTable_getElem?_phase (c : Config) (a : Phase) :
    c.data.sineTable[(a.toNat + 4) / 8 % 128]? = some (sine c (tableIndex a)).toNat := by
  rw [← tableIndex_toNat_eq_div_mod]
  exact sineTable_getElem?_toNat c (tableIndex a)

theorem tick_enabled_iff (s : State) : s.enabled .tick = true ↔ s.timerOn = true ∧ s.fault = none := by
  simp [State.enabled, and_comm]

/-- Settles O26: the two samples are the table entries that R78 reads, and the low channel is silent or sounding. -/
theorem tickSynthesizesSample : Obligations.TickSynthesizesSample := by
  refine fun c s => ⟨tick_enabled_iff s, (s.sampleHi c).toNat, (s.sampleLo c).toNat, sineTable_getElem?_phase c _, ?_,
    advance_toNat _ _, ?_, (tickDuty_toNat c s).trans (blend_eq_sub_div _ _), BitVec.toNat_add _ _, rfl⟩
  · split
    next hsilent => rw [sampleLo_of_silent c hsilent]; rfl
    next hsounding => rw [sampleLo_of_sounding c hsounding]; exact sineTable_getElem?_phase c _
  · split
    next hsilent => rw [tick_accLo, nextAccLo_of_silent hsilent]
    next hsounding => rw [tick_accLo, nextAccLo_of_sounding hsounding]; exact advance_toNat _ _

/-- With the low channel silent `duty` is the high sample exactly (R81). -/
theorem tickDuty_toNat_of_silent (c : Config) {s : State} (h : s.stepLo = 0#8) :
    (s.tickDuty c).toNat = (s.sampleHi c).toNat := by
  rw [tickDuty_toNat, sampleLo_of_silent c h, blend_zero_right]

/-- Settles O27: the silent low channel keeps its phase and adds 0 to the blend. -/
theorem silentLowChannel : Obligations.SilentLowChannel :=
  fun c _ h => ⟨nextAccLo_of_silent h, tickDuty_toNat_of_silent c h⟩

/-! ### Runs of TICKs -/

/-- The last of `n + 1` TICKs. -/
theorem ticks_succ_last (c : Config) (n : Nat) (s : State) : ticks c (n + 1) s = tick c (ticks c n s) := by
  induction n generalizing s with
  | zero => rfl
  | succ n ih => exact ih (tick c s)

/-- TICKs keep whatever one TICK keeps. -/
theorem ticks_keeps {α : Type} (g : State → α) {c : Config} (hg : ∀ u, g (tick c u) = g u) (n : Nat) (s : State) :
    g (ticks c n s) = g s := by
  induction n with
  | zero => rfl
  | succ n ih => rw [ticks_succ_last, hg, ih]

@[simp] theorem ticks_stepHi (c : Config) (n : Nat) (s : State) : (ticks c n s).stepHi = s.stepHi :=
  ticks_keeps State.stepHi (tick_stepHi c) n s

@[simp] theorem ticks_stepLo (c : Config) (n : Nat) (s : State) : (ticks c n s).stepLo = s.stepLo :=
  ticks_keeps State.stepLo (tick_stepLo c) n s

theorem ticks_succ_accHi (c : Config) (n : Nat) (s : State) :
    (ticks c (n + 1) s).accHi = advance (ticks c n s).accHi s.stepHi := by
  rw [ticks_succ_last, tick_accHi, State.nextAccHi, ticks_stepHi]

theorem ticks_succ_accLo (c : Config) (n : Nat) {s : State} (h : s.stepLo ≠ 0#8) :
    (ticks c (n + 1) s).accLo = advance (ticks c n s).accLo s.stepLo := by
  rw [ticks_succ_last, tick_accLo, nextAccLo_of_sounding (by rwa [ticks_stepLo]), ticks_stepLo]

/-- A high channel of step width 0 keeps its phase, which is always advanced (R82). -/
theorem ticks_accHi_of_silent (c : Config) (n : Nat) {s : State} (h : s.stepHi = 0#8) :
    (ticks c n s).accHi = s.accHi := by
  induction n with
  | zero => rfl
  | succ n ih => rw [ticks_succ_accHi, h, advance_zero, ih]

theorem ticks_accLo_of_silent (c : Config) (n : Nat) {s : State} (h : s.stepLo = 0#8) :
    (ticks c n s).accLo = s.accLo := by
  induction n with
  | zero => rfl
  | succ n ih => rw [ticks_succ_last, tick_accLo, nextAccLo_of_silent (by rwa [ticks_stepLo]), ih]

theorem ticks_sampleHi_of_silent (c : Config) (n : Nat) {s : State} (h : s.stepHi = 0#8) :
    (ticks c n s).sampleHi c = sine c (tableIndex s.accHi) := by
  rw [State.sampleHi, State.nextAccHi, ticks_stepHi, h, advance_zero, ticks_accHi_of_silent c n h]

/-- Settles O28: silent channels keep their phases, and the last TICK writes the sample at the kept high phase. -/
theorem silentTicksWriteConstant : Obligations.SilentTicksWriteConstant := by
  refine fun c s n hhi => ⟨ticks_accHi_of_silent c n hhi, ticks_sampleHi_of_silent c n hhi, fun hlo =>
    ⟨ticks_accLo_of_silent c n hlo, ?_⟩⟩
  rw [ticks_succ_last, tick_duty, tickDuty_toNat_of_silent c (by rwa [ticks_stepLo]), ticks_sampleHi_of_silent c n hhi]

/-! ### The period of the phase (R89)

Both channels are a sequence of phases that each TICK advances by the same step width. -/

/-- `P(s)` divides exactly the numbers of ticks whose advances add up to whole rounds of the table. -/
theorem phasePeriod_dvd_iff (step : StepWidth) (n : Nat) : phasePeriod step ∣ n ↔ 1024 ∣ n * step.toNat := by
  have hpos : 0 < Nat.gcd step.toNat 1024 := Nat.gcd_pos_of_pos_right _ (by decide)
  rw [phasePeriod, Nat.div_dvd_iff_dvd_mul (Nat.gcd_dvd_right _ _) hpos, Nat.gcd_comm, Nat.dvd_gcd_mul_iff_dvd_mul,
    Nat.mul_comm]

section
variable {phase : Nat → Phase} {step : StepWidth} (hnext : ∀ n, phase (n + 1) = advance (phase n) step)
include hnext

theorem phase_modEq (n : Nat) : (phase n).toNat ≡ (phase 0).toNat + n * step.toNat [MOD 1024] := by
  induction n with
  | zero => rw [Nat.zero_mul, Nat.add_zero]
  | succ n ih =>
    rw [hnext, Nat.succ_mul, ← Nat.add_assoc]
    exact (advance_modEq _ _).trans (ih.add_right _)

theorem phase_modEq_start_iff (n : Nat) : (phase n).toNat ≡ (phase 0).toNat [MOD 1024] ↔ phasePeriod step ∣ n := by
  rw [phasePeriod_dvd_iff, ← Nat.add_modEq_left_iff (a := (phase 0).toNat)]
  exact ⟨(phase_modEq hnext n).symm.trans, (phase_modEq hnext n).trans⟩

theorem tableIndex_periodic (n : Nat) : tableIndex (phase (n + phasePeriod step)) = tableIndex (phase n) := by
  have hback : (phase n).toNat + phasePeriod step * step.toNat ≡ (phase n).toNat [MOD 1024] :=
    Nat.add_modEq_left_iff.mpr ((phasePeriod_dvd_iff step _).mp (dvd_refl _))
  exact tableIndex_congr ((phase_modEq (phase := fun k => phase (n + k)) (fun k => hnext (n + k)) _).trans hback)

/-- What R89 says of one channel. -/
theorem channel_periodicity (n : Nat) :
    (phase n).toNat % 1024 = ((phase 0).toNat + n * step.toNat) % 1024 ∧
      ((phase n).toNat % 1024 = (phase 0).toNat % 1024 ↔ phasePeriod step ∣ n) ∧
      tableIndex (phase (n + phasePeriod step)) = tableIndex (phase n) :=
  ⟨phase_modEq hnext n, phase_modEq_start_iff hnext n, tableIndex_periodic hnext n⟩

end

/-- Settles O29: every TICK advances the high channel by its step width, and the low one when it sounds. -/
theorem phasePeriodicity : Obligations.PhasePeriodicity := by
  refine ⟨fun c s n => ?_, by decide⟩
  obtain ⟨hmod, hstart, hindex⟩ :=
    channel_periodicity (phase := fun k => (ticks c k s).accHi) (ticks_succ_accHi c · s) n
  exact ⟨hmod, hstart, hindex, fun hsounding =>
    channel_periodicity (phase := fun k => (ticks c k s).accLo) (ticks_succ_accLo c · hsounding) n⟩

/-! ### Phases that agree mod 1024 (R88)

Only TICK reads an accumulator, and it reads it through the index. Every other agent's step, and the choice of the agent,
is the same with any other values in the accumulators. -/

/-- `s` with other values in its accumulators. -/
def State.withPhases (s : State) (hi lo : Phase) : State :=
  { s with accHi := hi, accLo := lo }

/-- Equal but for the accumulator bits above bit 9. -/
structure State.SamePhase (s t : State) : Prop where
  frame : t = s.withPhases t.accHi t.accLo
  accHi : s.accHi.toNat ≡ t.accHi.toNat [MOD 1024]
  accLo : s.accLo.toNat ≡ t.accLo.toNat [MOD 1024]

/-- No observed register is an accumulator. -/
theorem State.SamePhase.observed {s t : State} (h : s.SamePhase t) :
    t.history = s.history ∧ t.pin = s.pin ∧ t.dialInhibit = s.dialInhibit ∧ t.fault = s.fault ∧
      t.ctrlPc = s.ctrlPc := by
  rw [h.frame]
  exact ⟨rfl, rfl, rfl, rfl, rfl⟩

/-! #### TICK -/

theorem nextAccHi_congr {s t : State} (hacc : s.accHi.toNat ≡ t.accHi.toNat [MOD 1024]) (hstep : s.stepHi = t.stepHi) :
    s.nextAccHi.toNat ≡ t.nextAccHi.toNat [MOD 1024] := by
  rw [State.nextAccHi, State.nextAccHi, hstep]
  exact advance_congr hacc _

theorem nextAccLo_congr {s t : State} (hacc : s.accLo.toNat ≡ t.accLo.toNat [MOD 1024]) (hstep : s.stepLo = t.stepLo) :
    s.nextAccLo.toNat ≡ t.nextAccLo.toNat [MOD 1024] := by
  by_cases hsilent : t.stepLo = 0#8
  · rwa [nextAccLo_of_silent hsilent, nextAccLo_of_silent (hstep.trans hsilent)]
  · rw [nextAccLo_of_sounding hsilent, nextAccLo_of_sounding (by rwa [hstep]), hstep]
    exact advance_congr hacc _

/-- The value that a TICK writes depends on the step widths and on the phases mod 1024. -/
theorem tickDuty_congr (c : Config) {s t : State} (hhi : s.accHi.toNat ≡ t.accHi.toNat [MOD 1024])
    (hlo : s.accLo.toNat ≡ t.accLo.toNat [MOD 1024]) (hstepHi : s.stepHi = t.stepHi) (hstepLo : s.stepLo = t.stepLo) :
    s.tickDuty c = t.tickDuty c := by
  have hindexHi := tableIndex_congr (nextAccHi_congr hhi hstepHi)
  have hindexLo := tableIndex_congr (nextAccLo_congr hlo hstepLo)
  simp only [State.tickDuty, State.sampleHi, State.sampleLo, hindexHi, hindexLo, hstepLo]

theorem ticks_history_congr (c : Config) (n : Nat) {s t : State} (hhi : s.accHi.toNat ≡ t.accHi.toNat [MOD 1024])
    (hlo : s.accLo.toNat ≡ t.accLo.toNat [MOD 1024]) (hstepHi : s.stepHi = t.stepHi) (hstepLo : s.stepLo = t.stepLo)
    (hgate : s.gateEn = t.gateEn) (hhist : s.history = t.history) : (ticks c n s).history = (ticks c n t).history := by
  induction n generalizing s t with
  | zero => exact hhist
  | succ n ih =>
    have hduty := tickDuty_congr c hhi hlo hstepHi hstepLo
    exact ih (nextAccHi_congr hhi hstepHi) (nextAccLo_congr hlo hstepLo) hstepHi hstepLo hgate
      (by rw [tick_history, tick_history, hduty, hgate, hhist])

theorem tick_samePhase (c : Config) {s t : State} (h : s.SamePhase t) : (tick c s).SamePhase (tick c t) := by
  obtain ⟨hi, lo, rfl⟩ : ∃ hi lo, t = s.withPhases hi lo := ⟨_, _, h.frame⟩
  have hduty : (s.withPhases hi lo).tickDuty c = s.tickDuty c := (tickDuty_congr c h.accHi h.accLo rfl rfl).symm
  refine ⟨?_, nextAccHi_congr h.accHi rfl, nextAccLo_congr h.accLo rfl⟩
  rw [tick, tick, hduty]
  rfl

/-! #### The other agents -/

theorem issue_withPhases (w : Word) (p : State → State) (hi lo : Phase) {s t : State}
    (hp : ∀ u : State, p (u.withPhases hi lo) = (p u).withPhases hi lo) (h : issue w p s = .next t) :
    issue w p (s.withPhases hi lo) = .next (t.withPhases hi lo) := by
  obtain ⟨hf, ⟨hb, rfl⟩ | ⟨hb, rfl⟩⟩ := issue_cases h
  · exact issue_busy (s := s.withPhases hi lo) hf hb
  · rw [issue_idle (s := s.withPhases hi lo) hf hb]
    exact congrArg Host.Outcome.next (hp (s.emit (.cmd w)))

theorem performPlay_withPhases (code : Code) (dur : Duration) (hi lo : Phase) (s : State) :
    performPlay code dur (s.withPhases hi lo) = (performPlay code dur s).withPhases hi lo := by
  have ht : (s.withPhases hi lo).timerOn = s.timerOn := rfl
  simp only [performPlay, ht]
  split
  · rfl
  · split <;> rfl

theorem exec_withPhases (i : Instr) (hi lo : Phase) {s t : State} (h : exec i s = .next t) :
    exec i (s.withPhases hi lo) = .next (t.withPhases hi lo) := by
  cases i with
  | init => exact issue_withPhases _ performInit hi lo (fun _ => rfl) h
  | play code dur => exact issue_withPhases _ _ hi lo (performPlay_withPhases code dur hi lo) h

theorem hostStep_withPhases (hi lo : Phase) {s t : State} (h : hostStep s = .next t) :
    hostStep (s.withPhases hi lo) = .next (t.withPhases hi lo) := by
  obtain ⟨w, rest, hw, hcase⟩ := hostStep_cases h
  have hw' : (s.withPhases hi lo).hostProg = w :: rest := hw
  simp only [hostStep, State.takeWord, hw']
  obtain ⟨i, hd, hexec⟩ | ⟨hd, hissue⟩ := hcase <;> simp only [hd]
  · exact exec_withPhases i hi lo hexec
  · exact issue_withPhases _ (State.raise · illegalCommand w) hi lo (fun _ => rfl) hissue

theorem gateOn_withPhases (hi lo : Phase) (s : State) :
    gateOn (s.withPhases hi lo) = (gateOn s).withPhases hi lo := by
  have haudible : (s.withPhases hi lo).audible = s.audible := rfl
  rw [gateOn, gateOn, haudible]
  split <;> rfl

theorem wait_withPhases (hi lo : Phase) (s : State) : wait (s.withPhases hi lo) = (wait s).withPhases hi lo := by
  have hidx : (s.withPhases hi lo).segIdx = s.segIdx := rfl
  have hcount : (s.withPhases hi lo).nSeg = s.nSeg := rfl
  rw [wait, wait, hidx, hcount]
  split <;> rfl

theorem ctrlStep_withPhases (c : Config) (hi lo : Phase) (s : State) :
    ctrlStep c (s.withPhases hi lo) = (ctrlStep c s).withPhases hi lo := by
  have hpc : (s.withPhases hi lo).ctrlPc = s.ctrlPc := rfl
  simp only [ctrlStep, hpc]
  cases s.ctrlPc with
  | gateOn => exact gateOn_withPhases hi lo s
  | wait => exact wait_withPhases hi lo s
  | _ => rfl

theorem agentStep_withPhases (c : Config) {a : Agent} (ha : a ≠ .tick) {s t : State} (hi lo : Phase)
    (h : agentStep c a s = .next t) : agentStep c a (s.withPhases hi lo) = .next (t.withPhases hi lo) := by
  cases a with
  | host => exact hostStep_withPhases hi lo h
  | ctrl => cases h; exact congrArg Host.Outcome.next (ctrlStep_withPhases c hi lo s)
  | tick => exact absurd rfl ha

/-! #### One step of the machine -/

/-- TICK keeps the phases equal mod 1024; any other agent keeps the accumulators themselves. -/
theorem agentStep_samePhase (c : Config) {a : Agent} {s t u : State} (h : s.SamePhase t)
    (hu : agentStep c a s = .next u) : ∃ v, agentStep c a t = .next v ∧ u.SamePhase v := by
  by_cases ha : a = .tick
  · subst ha
    cases hu
    exact ⟨tick c t, rfl, tick_samePhase c h⟩
  · have hkeep : u = u.withPhases s.accHi s.accLo :=
      Host.Outcome.next.inj (hu.symm.trans (agentStep_withPhases c ha s.accHi s.accLo hu))
    refine ⟨u.withPhases t.accHi t.accLo, ?_, rfl, ?_, ?_⟩
    · rw [h.frame]
      exact agentStep_withPhases c ha _ _ hu
    · rw [hkeep]
      exact h.accHi
    · rw [hkeep]
      exact h.accLo

theorem enabled_withPhases (hi lo : Phase) (s : State) : (s.withPhases hi lo).enabled = s.enabled := by
  funext a
  cases a <;> rfl

theorem chooseAgent_withPhases (hi lo : Phase) (s : State) :
    chooseAgent (s.withPhases hi lo) = (chooseAgent s).map fun p => (p.1, p.2.withPhases hi lo) := by
  have henabled := enabled_withPhases hi lo s
  have hagents : enabledAgents (s.withPhases hi lo) = enabledAgents s := by rw [enabledAgents, henabled, enabledAgents]
  have hschedule : (s.withPhases hi lo).schedule = s.schedule := rfl
  simp only [chooseAgent, hschedule, firstEnabled_congr henabled, hagents]
  cases firstEnabled s s.schedule with
  | some p => rfl
  | none => cases enabledAgents s with
    | nil => rfl
    | cons a more => cases more <;> rfl

/-- The same agent moves next, from states whose phases still agree. -/
theorem chooseAgent_samePhase {s t u : State} {a : Agent} (h : s.SamePhase t) (hc : chooseAgent s = some (a, u)) :
    ∃ v, chooseAgent t = some (a, v) ∧ u.SamePhase v := by
  obtain ⟨hi, lo, rfl⟩ : ∃ hi lo, t = s.withPhases hi lo := ⟨_, _, h.frame⟩
  obtain ⟨-, sch, n, hu⟩ := chooseAgent_cases hc
  refine ⟨u.withPhases hi lo, ?_, rfl, hu ▸ h.accHi, hu ▸ h.accLo⟩
  rw [chooseAgent_withPhases, hc]
  rfl

/-- Two outcomes that tell no more than related states do: related next states, or the same stop. -/
inductive RelatedOutcome (R : State → State → Prop) :
    Host.Outcome State Fault Refusal → Host.Outcome State Fault Refusal → Prop
  | next {s t : State} (h : R s t) : RelatedOutcome R (.next s) (.next t)
  | fault (f : Fault) : RelatedOutcome R (.fault f) (.fault f)

/-- What every step keeps related, every run keeps related. -/
theorem runWith_related {R : State → State → Prop} {c : Config}
    (hstep : ∀ s t, R s t → RelatedOutcome R (stepWith c s) (stepWith c t)) (k : Nat) {s t : State} (h : R s t) :
    RelatedOutcome R (runWith c k s) (runWith c k t) := by
  induction k generalizing s t with
  | zero => exact .next h
  | succ k ih =>
    simp only [runWith]
    have hnext := hstep s t h
    generalize stepWith c s = o, stepWith c t = o' at hnext ⊢
    cases hnext with
    | next hu => exact ih hu
    | fault f => exact .fault f

theorem stepWith_samePhase (c : Config) {s t : State} (h : s.SamePhase t) :
    RelatedOutcome State.SamePhase (stepWith c s) (stepWith c t) := by
  obtain ⟨-, -, -, hfault, -⟩ := h.observed
  cases hf : s.fault with
  | some f =>
    rw [stepWith_halted hf, stepWith_halted (hfault.trans hf)]
    exact .fault _
  | none =>
    cases hc : chooseAgent s with
    | none =>
      have hs : ∀ a, s.enabled a = false := chooseAgent_none hc
      have ht : t.enabled = s.enabled := h.frame ▸ enabled_withPhases _ _ s
      rw [stepWith_noEnabledStep c hf hs, stepWith_noEnabledStep c (hfault.trans hf) (by rwa [ht])]
      exact .fault _
    | some p =>
      obtain ⟨a, u⟩ := p
      obtain ⟨v, hv, hphase⟩ := chooseAgent_samePhase h hc
      obtain ⟨ha, -⟩ := chooseAgent_cases hc
      obtain ⟨u', hu'⟩ := stepWith_exists_next c ha
      have hstep := stepWith_of_chooseAgent c hf hc
      obtain ⟨v', hv', hnext⟩ := agentStep_samePhase c hphase (hstep.symm.trans hu')
      rw [hu', stepWith_of_chooseAgent c (hfault.trans hf) hv, hv']
      exact .next hnext

/-- Settles O30: phases that agree mod 1024 stay so in any run, and an index does not tell them apart. -/
theorem highAccumulatorBitsAreUnobservable : Obligations.HighAccumulatorBitsAreUnobservable := by
  refine ⟨fun c k s t hframe hhi hlo => ?_, fun c s t n hhi hlo => ticks_history_congr c n hhi hlo⟩
  have hrun := runWith_related (fun _ _ => stepWith_samePhase c) k (State.SamePhase.mk hframe hhi hlo)
  generalize runWith c k s = o, runWith c k t = o' at hrun
  cases hrun with
  | @next u v hphase =>
    refine ⟨fun w hw => ?_, fun _ hf => nomatch hf⟩
    cases hw
    exact ⟨v, rfl, hphase.observed⟩
  | fault f => exact ⟨fun _ hu => (nomatch hu), fun _ hf => hf⟩

end Sys2Proof.Machine
end

section
/-! PROOFS. The duration waiter's rules of 41_duration_waiter.md: WAIT_START and WAIT (R95, R96), how many TICKs lift the
hold (R97, R98), that a PLAY in progress can be brought to its end, and what fairness gives a WAIT (R101). -/

namespace Sys2Proof.Machine

/-! ### WAIT_START and WAIT -/

theorem ctrlStep_of_waitStart (c : Config) {s : State} (h : s.ctrlPc = .waitStart) : ctrlStep c s = waitStart s := by
  simp [ctrlStep, h]

theorem ctrlStep_of_wait (c : Config) {s : State} (h : s.ctrlPc = .wait) : ctrlStep c s = wait s := by
  simp [ctrlStep, h]

/-- Settles O31: the step is `waitStart`, which writes these two registers. -/
theorem waitStartBeginsEpoch : Obligations.WaitStartBeginsEpoch :=
  fun c _ h => ctrlStep_of_waitStart c h

/-- At WAIT the hold alone decides whether CTRL has a step: the test is strict and unsigned (R96). -/
theorem ctrl_enabled_at_wait_iff {s : State} (hp : s.ctrlPc = .wait) (hf : s.fault = none) :
    s.enabled .ctrl = true ↔ s.segTicks.toNat < s.tickCnt.toNat := by
  simp [State.enabled, State.ctrlReady, State.busy, State.held, hp, hf, BitVec.lt_def]

/-- While a segment is left, the `seg_idx` that WAIT writes does not wrap. -/
theorem segIdx_add_one_val {s : State} (h : s.segIdx.val + 1 < segCountNat s.nSeg) :
    (s.segIdx + 1).val = s.segIdx.val + 1 :=
  Fin.val_add_one_of_lt' (h.trans_le (segCountNat_le s.nSeg))

/-- Settles O32: the two ways of `wait`, and its enabling. -/
theorem waitHoldsThenAdvances : Obligations.WaitHoldsThenAdvances := by
  refine fun c s hp hf _ => ⟨ctrl_enabled_at_wait_iff hp hf, fun hleft => ?_, fun hlast => ?_⟩
  · exact ⟨s.segIdx + 1, segIdx_add_one_val hleft, (ctrlStep_of_wait c hp).trans (if_pos hleft)⟩
  · exact (ctrlStep_of_wait c hp).trans (if_neg hlast.not_lt)

/-! ### TICKs during a WAIT -/

@[simp] theorem ticks_timerOn (c : Config) (n : Nat) (s : State) : (ticks c n s).timerOn = s.timerOn :=
  ticks_keeps State.timerOn (tick_timerOn c) n s

@[simp] theorem ticks_fault (c : Config) (n : Nat) (s : State) : (ticks c n s).fault = s.fault :=
  ticks_keeps State.fault (tick_fault c) n s

@[simp] theorem ticks_ctrlPc (c : Config) (n : Nat) (s : State) : (ticks c n s).ctrlPc = s.ctrlPc :=
  ticks_keeps State.ctrlPc (tick_ctrlPc c) n s

@[simp] theorem ticks_segTicks (c : Config) (n : Nat) (s : State) : (ticks c n s).segTicks = s.segTicks :=
  ticks_keeps State.segTicks (tick_segTicks c) n s

@[simp] theorem ticks_hostWait (c : Config) (n : Nat) (s : State) : (ticks c n s).hostWait = s.hostWait :=
  ticks_keeps State.hostWait (tick_hostWait c) n s

@[simp] theorem ticks_latchedWord (c : Config) (n : Nat) (s : State) : (ticks c n s).latchedWord = s.latchedWord :=
  ticks_keeps State.latchedWord (fun _ => rfl) n s

/-- Every TICK counts one, and the counter wraps (R85). -/
theorem ticks_tickCnt_toNat (c : Config) (n : Nat) (s : State) :
    (ticks c n s).tickCnt.toNat = (s.tickCnt.toNat + n) % 2 ^ 32 := by
  induction n with
  | zero => exact (Nat.mod_eq_of_lt s.tickCnt.isLt).symm
  | succ n ih =>
    rw [ticks_succ_last, tick_tickCnt, BitVec.toNat_add, ih]
    exact Nat.mod_add_mod _ _ _

/-- Settles O33: from `tick_cnt = 0` the counter is the number of TICKs, as long as it does not wrap. -/
theorem holdLiftsAfterTargetTicks : Obligations.HoldLiftsAfterTargetTicks := by
  intro c s n hp hf hzero hn
  have hcount : (ticks c n s).tickCnt.toNat = n := by
    rw [ticks_tickCnt_toNat, hzero, BitVec.toNat_zero, Nat.zero_add, Nat.mod_eq_of_lt hn]
  rw [ctrl_enabled_at_wait_iff (by simpa using hp) (by simpa using hf), hcount, ticks_segTicks]

/-- How many TICKs are missing until the hold lifts. -/
def State.ticksMissing (s : State) : Nat := s.segTicks.toNat + 1 - s.tickCnt.toNat

/-- Up to then the hold stays. -/
theorem ticks_held (c : Config) {s : State} {n : Nat} (hn : n < s.ticksMissing) :
    (ticks c n s).tickCnt.toNat ≤ (ticks c n s).segTicks.toNat := by
  have ht := s.segTicks.isLt
  unfold State.ticksMissing at hn
  rw [ticks_tickCnt_toNat, ticks_segTicks]
  omega

/-- A target below the counter's wrap is passed (R85). -/
theorem ticks_lifted (c : Config) {s : State} (ht : s.segTicks.toNat ≤ 2 ^ 32 - 2) :
    (ticks c s.ticksMissing s).segTicks.toNat < (ticks c s.ticksMissing s).tickCnt.toNat := by
  have hc := s.tickCnt.isLt
  rw [ticks_tickCnt_toNat, ticks_segTicks, State.ticksMissing]
  omega

/-! ### A PLAY in progress -/

/-- What the rest of a PLAY rests on, from MASK to UNMASK. -/
structure State.InPlay (s : State) : Prop where
  busy : s.ctrlPc ≠ .idle
  clear : s.fault = none
  timer : s.timerOn = true
  /-- The HOST waits for this PLAY, so it has no step (R129). -/
  waiting : s.hostWait = some s.latchedWord
  /-- The wait target is below the counter's wrap (R12, R85). -/
  target : s.ctrlPc.segmented = true → s.segTicks.toNat ≤ 2 ^ 32 - 2

/-- The invariant gives it for every PLAY in progress with no fault. -/
theorem State.Inv.inPlay {s : State} (h : s.Inv) (hf : s.fault = none) (hb : s.ctrlPc ≠ .idle) : s.InPlay :=
  ⟨hb, hf, h.playing hb, (h.waiting hf).trans (if_neg hb), h.target⟩

theorem State.InPlay.target_at_wait {s : State} (h : s.InPlay) (hp : s.ctrlPc = .wait) :
    s.segTicks.toNat ≤ 2 ^ 32 - 2 :=
  h.target (by rw [hp]; rfl)

theorem State.InPlay.not_enabled_host {s : State} (h : s.InPlay) : s.enabled .host = false := by
  simp [State.enabled, State.hostReady, h.waiting]

theorem State.InPlay.enabled_tick {s : State} (h : s.InPlay) : s.enabled .tick = true :=
  tick_enabled h.timer h.clear

theorem ticks_inPlay (c : Config) (n : Nat) {s : State} (h : s.InPlay) : (ticks c n s).InPlay := by
  obtain ⟨hbusy, hclear, htimer, hwaiting, htarget⟩ := h
  exact ⟨by simpa, by simpa, by simpa, by simpa, by simpa⟩

/-! ### The CTRL steps of a PLAY -/

/-- Before UNMASK no CTRL step touches the HOST's wait, the command latches or the fault record. -/
theorem ctrlStep_command (c : Config) {s : State} (hu : s.ctrlPc ≠ .unmask) :
    (ctrlStep c s).fault = s.fault ∧ (ctrlStep c s).hostWait = s.hostWait ∧
      (ctrlStep c s).latchedWord = s.latchedWord := by
  cases hp : s.ctrlPc with
  | unmask => exact absurd hp hu
  | gateOn => obtain ⟨-, h⟩ | ⟨-, h⟩ := gateOn_cases s <;> simp [ctrlStep, hp, h, State.latchedWord]
  | wait => obtain ⟨-, h⟩ | ⟨-, h⟩ := wait_cases s <;> simp [ctrlStep, hp, h, State.latchedWord]
  | _ =>
    simp [ctrlStep, hp, mask, resolve, setHi, setLo, waitStart, nextHi, gateOff, zeroHi, zeroLo, State.latchedWord]

/-- No duration makes a wait target at or above 2^32 - 1 (R12, log entry 16). -/
theorem segmentTicks_le (c : Config) (d : Duration) (n : SegCount) : segmentTicks c d n ≤ 2 ^ 32 - 2 := by
  obtain ⟨-, -, hticks, -, -, -⟩ := c.data.wf_iff.mp c.ok
  obtain ⟨-, hbound⟩ := c.data.ticksOk_iff.mp hticks
  have hd : d.toNat ≤ 65535 := Nat.le_of_lt_succ d.isLt
  calc
    ticksOf c d / segCountNat n ≤ ticksOf c d := Nat.div_le_self _ _
    _ ≤ 65535 * c.data.ticksPerMs := Nat.mul_le_mul_right _ hd
    _ ≤ 2 ^ 32 - 2 := hbound

theorem resolve_segTicks_toNat (c : Config) (s : State) : (resolve c s).segTicks.toNat ≤ 2 ^ 32 - 2 :=
  (Nat.mod_le _ _).trans (segmentTicks_le c _ _)

/-- RESOLVE writes a target below the wrap, and the later steps keep it. -/
theorem ctrlStep_target (c : Config) {s : State} (h : s.ctrlPc.segmented = true → s.segTicks.toNat ≤ 2 ^ 32 - 2)
    (hseg : (ctrlStep c s).ctrlPc.segmented = true) : (ctrlStep c s).segTicks.toNat ≤ 2 ^ 32 - 2 := by
  cases hp : s.ctrlPc <;> simp only [ctrlStep, hp] at hseg ⊢ <;> rw [hp] at h
  case resolve => exact resolve_segTicks_toNat c s
  case gateOn => obtain ⟨-, hg⟩ | ⟨-, hg⟩ := gateOn_cases s <;> rw [hg] <;> exact h rfl
  case wait => obtain ⟨-, hw⟩ | ⟨-, hw⟩ := wait_cases s <;> rw [hw] <;> exact h rfl
  case setHi | setLo | waitStart | nextHi => exact h rfl
  case idle | mask | gateOff | zeroHi | zeroLo | unmask => exact nomatch hseg

/-- A CTRL step leads to IDLE at UNMASK alone. -/
theorem ctrlStep_busy (c : Config) {s : State} (hb : s.ctrlPc ≠ .idle) (hu : s.ctrlPc ≠ .unmask) :
    (ctrlStep c s).ctrlPc ≠ .idle := by
  cases hp : s.ctrlPc with
  | idle => exact absurd hp hb
  | unmask => exact absurd hp hu
  | wait => obtain ⟨-, h⟩ | ⟨-, h⟩ := wait_cases s <;> simp [ctrlStep, hp, h]
  | _ => simp [ctrlStep, hp, mask, resolve, setHi, setLo, gateOn, waitStart, nextHi, gateOff, zeroHi, zeroLo]

theorem ctrlStep_inPlay (c : Config) {s : State} (h : s.InPlay) (hu : s.ctrlPc ≠ .unmask) :
    (ctrlStep c s).InPlay := by
  obtain ⟨hfault, hwait, hword⟩ := ctrlStep_command c hu
  obtain ⟨-, -, -, -, htimer, -⟩ := ctrlStep_shared c s
  exact ⟨ctrlStep_busy c h.busy hu, hfault.trans h.clear, htimer.trans h.timer,
    hwait.trans (h.waiting.trans (congrArg some hword.symm)), ctrlStep_target c h.target⟩

/-- How many segments come after the current one. -/
def State.segmentsLeft (s : State) : Nat := segCountNat s.nSeg - (s.segIdx.val + 1)

/-- A bound on the CTRL steps up to IDLE: three for each segment that is left (NEXT_HI, WAIT_START and WAIT). Until RESOLVE
has moved it counts three segments, the most that there can be. -/
def State.ctrlStepsLeft (s : State) : Nat :=
  match s.ctrlPc with
  | .idle => 0
  | .mask => 17
  | .resolve => 16
  | .setHi => 9 + 3 * s.segmentsLeft
  | .setLo => 8 + 3 * s.segmentsLeft
  | .gateOn => 7 + 3 * s.segmentsLeft
  | .waitStart => 6 + 3 * s.segmentsLeft
  | .wait => 5 + 3 * s.segmentsLeft
  | .nextHi => 7 + 3 * s.segmentsLeft
  | .gateOff => 4
  | .zeroHi => 3
  | .zeroLo => 2
  | .unmask => 1

@[simp] theorem ticks_ctrlStepsLeft (c : Config) (n : Nat) (s : State) :
    (ticks c n s).ctrlStepsLeft = s.ctrlStepsLeft :=
  ticks_keeps State.ctrlStepsLeft (fun _ => rfl) n s

/-- After RESOLVE at most two segments come after the first. -/
theorem resolve_segmentsLeft_le (c : Config) (s : State) : (resolve c s).segmentsLeft ≤ 2 :=
  Nat.sub_le_sub_right (segCountNat_le _) 1

/-- Every CTRL step of a PLAY brings its end nearer. -/
theorem ctrlStepsLeft_ctrlStep_lt (c : Config) {s : State} (hb : s.ctrlPc ≠ .idle) :
    (ctrlStep c s).ctrlStepsLeft < s.ctrlStepsLeft := by
  cases hp : s.ctrlPc with
  | idle => exact absurd hp hb
  | resolve =>
    have hleft := resolve_segmentsLeft_le c s
    have hpc : (resolve c s).ctrlPc = .setHi := rfl
    simp only [ctrlStep, State.ctrlStepsLeft, hp, hpc]
    omega
  | gateOn =>
    obtain ⟨-, h⟩ | ⟨-, h⟩ := gateOn_cases s <;>
      simp [ctrlStep, hp, h, State.ctrlStepsLeft, State.segmentsLeft]
  | wait =>
    obtain ⟨hleft, h⟩ | ⟨-, h⟩ := wait_cases s
    · have hidx := segIdx_add_one_val hleft
      simp only [ctrlStep, hp, h, State.ctrlStepsLeft, State.segmentsLeft, State.goto_ctrlPc, State.goto_nSeg,
        State.goto_segIdx, hidx]
      omega
    · simp only [ctrlStep, hp, h, State.ctrlStepsLeft, State.goto_ctrlPc]
      omega
  | _ =>
    simp [ctrlStep, hp, mask, setHi, setLo, waitStart, nextHi, gateOff, zeroHi, zeroLo, unmask, State.ctrlStepsLeft,
      State.segmentsLeft]

/-! ### Runs under some schedule -/

/-- Some schedule leads from `s` to `t` in finitely many steps, whatever the schedule holds after it. -/
def Reaches (c : Config) (s t : State) : Prop :=
  ∃ sch k, ∀ tail, runWith c k { s with schedule := sch ++ tail } = .next { t with schedule := tail }

theorem Reaches.refl (c : Config) (s : State) : Reaches c s s := ⟨[], 0, fun _ => rfl⟩

theorem Reaches.trans {c : Config} {s t u : State} (h : Reaches c s t) (h' : Reaches c t u) : Reaches c s u := by
  obtain ⟨sch, k, hk⟩ := h
  obtain ⟨sch', k', hk'⟩ := h'
  exact ⟨sch ++ sch', k + k', fun tail => by rw [List.append_assoc, runWith_add (hk _), hk']⟩

/-- The schedule that names an enabled agent makes its step. -/
theorem reaches_agentStep {c : Config} {s t : State} {a : Agent} (ha : s.enabled a = true)
    (ht : agentStep c a s = .next t) : Reaches c s t := by
  refine ⟨[a], 1, fun tail => ?_⟩
  have hstep : stepWith c { s with schedule := a :: tail } = .next { t with schedule := tail } :=
    (everyEnabledAgentMayMove c s a tail ha).trans (agentStep_schedule c a tail ht)
  simp only [runWith, List.singleton_append, hstep]

theorem reaches_ticks (c : Config) (n : Nat) {s : State} (h : s.InPlay) : Reaches c s (ticks c n s) := by
  induction n with
  | zero => exact .refl c s
  | succ n ih =>
    rw [ticks_succ_last]
    exact ih.trans (reaches_agentStep (ticks_inPlay c n h).enabled_tick rfl)

/-- During a PLAY, TICKs bring CTRL to its turn: none outside WAIT, and those that lift the hold there. -/
theorem State.InPlay.exists_ctrl_enabled {s : State} (h : s.InPlay) (c : Config) :
    ∃ n, (ticks c n s).enabled .ctrl = true := by
  by_cases hp : s.ctrlPc = .wait
  · refine ⟨s.ticksMissing, ?_⟩
    rw [ctrl_enabled_at_wait_iff (by simpa using hp) (by simpa using h.clear)]
    exact ticks_lifted c (h.target_at_wait hp)
  · have hf := h.clear
    have hb := h.busy
    exact ⟨0, by simp [ticks, State.enabled, State.ctrlReady, State.busy, State.held, hp, hf, hb]⟩

/-- A PLAY's end: IDLE, the HOST free, and the DONE of the word as the last event (R119). -/
structure State.Completed (w : Word) (t : State) : Prop where
  idle : t.ctrlPc = .idle
  clear : t.fault = none
  free : t.hostWait = none
  done : t.history.getLast? = some (.done w)

theorem unmask_completed {s : State} (h : s.InPlay) : (unmask s).Completed s.latchedWord :=
  ⟨rfl, h.clear, by simp [unmask, h.waiting], by simp [unmask]⟩

/-- By the number of CTRL steps that are left: TICKs bring CTRL to its turn, and its step brings the end nearer. -/
theorem State.InPlay.reaches_completed (c : Config) {s : State} (h : s.InPlay) :
    ∃ t, Reaches c s t ∧ t.Completed s.latchedWord := by
  induction hk : s.ctrlStepsLeft using Nat.strong_induction_on generalizing s with
  | _ k ih =>
    obtain ⟨n, hn⟩ := h.exists_ctrl_enabled c
    have hu := ticks_inPlay c n h
    have hturn : Reaches c s (ctrlStep c (ticks c n s)) := (reaches_ticks c n h).trans (reaches_agentStep hn rfl)
    by_cases hp : s.ctrlPc = .unmask
    · have hstep : ctrlStep c (ticks c n s) = unmask (ticks c n s) := by simp [ctrlStep, hp]
      exact ⟨_, hstep ▸ hturn, by simpa using unmask_completed hu⟩
    · have hpu : (ticks c n s).ctrlPc ≠ .unmask := by simpa using hp
      have hlt := ctrlStepsLeft_ctrlStep_lt c hu.busy
      rw [ticks_ctrlStepsLeft, hk] at hlt
      obtain ⟨t, hreach, hdone⟩ := ih _ hlt (ctrlStep_inPlay c hu hpu) rfl
      obtain ⟨-, -, hword⟩ := ctrlStep_command c hpu
      rw [hword, ticks_latchedWord] at hdone
      exact ⟨t, hturn.trans hreach, hdone⟩

/-- Settles O58: the schedule of TICKs while WAIT is held and of CTRL otherwise. -/
theorem playCanComplete : Obligations.PlayCanComplete := by
  intro c s hinv hf hb
  obtain ⟨t, ⟨sch, k, hrun⟩, hdone⟩ := (hinv.inPlay hf hb).reaches_completed c
  refine ⟨sch, k, { t with schedule := [] }, ?_, hdone.idle, hdone.clear, hdone.free, hdone.done⟩
  have hrun' := hrun []
  rwa [List.append_nil] at hrun'

/-! ### A WAIT in an execution -/

namespace Execution

variable {c : Config} (e : Execution c)

theorem state_succ_of_tick {n : Nat} (h : e.mover n = some .tick) : e.state (n + 1) = tick c (e.state n) := by
  obtain ⟨-, hstep⟩ := e.moves n _ h
  exact (Host.Outcome.next.inj hstep).symm

theorem state_succ_of_ctrl {n : Nat} (h : e.mover n = some .ctrl) : e.state (n + 1) = ctrlStep c (e.state n) := by
  obtain ⟨-, hstep⟩ := e.moves n _ h
  exact (Host.Outcome.next.inj hstep).symm

/-- Where every step so far having been a TICK makes the next one a TICK, they all are. -/
theorem state_add_of_ticks (n k : Nat)
    (h : ∀ j < k, e.state (n + j) = ticks c j (e.state n) → e.mover (n + j) = some .tick) :
    e.state (n + k) = ticks c k (e.state n) := by
  induction k with
  | zero => rfl
  | succ k ih =>
    have hk := ih fun j hj => h j (Nat.lt_succ_of_lt hj)
    rw [ticks_succ_last, ← hk]
    exact e.state_succ_of_tick (h k k.lt_succ_self hk)

/-- During a PLAY only TICK and CTRL move, and TICK always can. -/
theorem mover_in_play {n : Nat} (h : (e.state n).InPlay) : e.mover n = some .tick ∨ e.mover n = some .ctrl := by
  cases hm : e.mover n with
  | none => exact absurd (((e.rests n hm).1 .tick).symm.trans h.enabled_tick) Bool.false_ne_true
  | some a =>
    cases a with
    | host => exact absurd (h.not_enabled_host.symm.trans (e.moves n _ hm).1) Bool.false_ne_true
    | ctrl => exact .inr rfl
    | tick => exact .inl rfl

/-- While WAIT is held only TICK moves, and its steps lift the hold (R101). -/
theorem hold_lifts {n : Nat} (h : (e.state n).InPlay) (hp : (e.state n).ctrlPc = .wait) :
    ∃ k, e.state (n + k) = ticks c k (e.state n) ∧
      (e.state (n + k)).segTicks.toNat < (e.state (n + k)).tickCnt.toNat := by
  have hticks : e.state (n + (e.state n).ticksMissing) = ticks c (e.state n).ticksMissing (e.state n) := by
    refine e.state_add_of_ticks n _ fun j hj hstate => ?_
    have hplay : (e.state (n + j)).InPlay := hstate ▸ ticks_inPlay c j h
    have hwait : (e.state (n + j)).ctrlPc = .wait := by simpa [hstate] using hp
    refine (e.mover_in_play hplay).resolve_right fun hctrl => ?_
    have hlifted := (ctrl_enabled_at_wait_iff hwait hplay.clear).mp (e.moves _ _ hctrl).1
    rw [hstate] at hlifted
    exact (ticks_held c hj).not_gt hlifted
  exact ⟨_, hticks, hticks ▸ ticks_lifted c (h.target_at_wait hp)⟩

/-- The CTRL step of WAIT leaves WAIT. -/
theorem ctrlStep_leaves_wait (c : Config) {s : State} (hp : s.ctrlPc = .wait) : (ctrlStep c s).ctrlPc ≠ .wait := by
  rw [ctrlStep_of_wait c hp]
  obtain ⟨-, h⟩ | ⟨-, h⟩ := wait_cases s <;> rw [h] <;> exact nofun

/-- A WAIT that never ends is TICKs for ever. -/
theorem only_ticks_of_endless_wait {n : Nat} (h : (e.state n).InPlay)
    (hstay : ∀ m, n ≤ m → (e.state m).ctrlPc = .wait) (k : Nat) :
    e.state (n + k) = ticks c k (e.state n) ∧ e.mover (n + k) = some .tick := by
  have hmover : ∀ j, e.state (n + j) = ticks c j (e.state n) → e.mover (n + j) = some .tick := fun j hstate => by
    refine (e.mover_in_play (hstate ▸ ticks_inPlay c j h)).resolve_right fun hctrl => ?_
    refine ctrlStep_leaves_wait c (hstay (n + j) (Nat.le_add_right n j)) ?_
    rw [← e.state_succ_of_ctrl hctrl]
    exact hstay (n + j + 1) (by omega)
  have hticks := e.state_add_of_ticks n k fun j _ => hmover j
  exact ⟨hticks, hmover k hticks⟩

/-- TICKs for ever take the counter past 2^32 - 1. -/
theorem wait_ends_of_epochsDoNotWrap (he : e.EpochsDoNotWrap) {n : Nat} (h : (e.state n).InPlay) :
    ∃ m, n ≤ m ∧ (e.state m).ctrlPc ≠ .wait := by
  by_contra! hstay
  obtain ⟨hticks, hmover⟩ := e.only_ticks_of_endless_wait h hstay (2 ^ 32 - 1 - (e.state n).tickCnt.toNat)
  have hlast := he _ (hstay _ (Nat.le_add_right n _)) hmover
  rw [hticks, ticks_tickCnt_toNat] at hlast
  have hlt := (e.state n).tickCnt.isLt
  omega

/-- The hold lifts again and again, and then CTRL is enabled. -/
theorem wait_ends_of_ctrlNotStarved (he : e.CtrlNotStarved) {n : Nat} (h : (e.state n).InPlay) :
    ∃ m, n ≤ m ∧ (e.state m).ctrlPc ≠ .wait := by
  by_contra! hstay
  have hticks := e.only_ticks_of_endless_wait h hstay
  obtain ⟨m, hm, hctrl⟩ := he n fun m hm => by
    obtain ⟨j, rfl⟩ := Nat.exists_eq_add_of_le hm
    have hplay : (e.state (n + j)).InPlay := (hticks j).1 ▸ ticks_inPlay c j h
    obtain ⟨k, hk, hlifted⟩ := e.hold_lifts hplay (hstay _ hm)
    have hclear : (e.state (n + j + k)).fault = none := by simpa [hk] using hplay.clear
    exact ⟨n + j + k, by omega, (ctrl_enabled_at_wait_iff (hstay _ (by omega)) hclear).mpr hlifted⟩
  obtain ⟨j, rfl⟩ := Nat.exists_eq_add_of_le hm
  exact nomatch (hticks j).2.symm.trans hctrl

/-- The execution in which only TICK moves. -/
def ticking (c : Config) (s : State) (ht : s.timerOn = true) (hf : s.fault = none) : Execution c where
  state n := ticks c n s
  mover _ := some .tick
  moves n a ha := by
    cases ha
    exact ⟨tick_enabled (by simpa using ht) (by simpa using hf),
      congrArg Host.Outcome.next (ticks_succ_last c n s).symm⟩
  rests n hn := nomatch hn

/-- During a WAIT that execution is fair in R170's sense: the HOST waits for its DONE, and whenever the counter has wrapped
to 0 the hold is back, so CTRL does not stay enabled (log entry 18). -/
theorem ticking_weakFair {s : State} (h : s.InPlay) (hp : s.ctrlPc = .wait) :
    (ticking c s h.timer h.clear).WeakFair where
  host n hn := absurd ((ticks_inPlay c n h).not_enabled_host.symm.trans (hn n le_rfl)) Bool.false_ne_true
  ctrl n hn := by
    have hlifted := (ctrl_enabled_at_wait_iff ((ticks_ctrlPc c _ s).trans hp) ((ticks_fault c _ s).trans h.clear)).mp
      (hn (n + (2 ^ 32 - (s.tickCnt.toNat + n) % 2 ^ 32)) (Nat.le_add_right n _))
    rw [ticks_tickCnt_toNat] at hlifted
    omega
  tick n _ := ⟨n, le_rfl, rfl⟩

end Execution

/-- Settles O59: TICKs lift the hold; TICKs for ever would wrap the counter, or starve CTRL; and R170's fairness alone
admits them. -/
theorem fairnessAndWaits : Obligations.FairnessAndWaits := by
  have hplay : ∀ {s : State}, s.Inv → s.fault = none → s.ctrlPc = .wait → s.InPlay := fun hinv hf hp =>
    hinv.inPlay hf (by simp [hp])
  refine ⟨fun c e n hinv hf hp => ?_, fun c e n hfair hinv hf hp => ?_, fun c s hinv hf hp => ?_⟩
  · obtain ⟨k, hticks, hlifted⟩ := e.hold_lifts (hplay hinv hf hp) hp
    exact ⟨n + k, Nat.le_add_right n k, by simpa [hticks] using hp, hlifted⟩
  · obtain hfair | hstrong := hfair
    · exact e.wait_ends_of_epochsDoNotWrap hfair.epoch (hplay hinv hf hp)
    · exact e.wait_ends_of_ctrlNotStarved hstrong (hplay hinv hf hp)
  · have h := hplay hinv hf hp
    exact ⟨.ticking c s h.timer h.clear, rfl, Execution.ticking_weakFair h hp, fun n => (ticks_ctrlPc c n s).trans hp⟩

end Sys2Proof.Machine
end

section
/-! PROOFS. The tone controller's rules of 42_tone_controller.md: the CTRL step of each state of the sequencer (R105 to
R119), the order of the sequence (R103), the invariant that every step keeps (R120, R109, R29, R129), the duration law
(R121), and that silence never opens the gate (R109, R113). -/

namespace Sys2Proof.Config

/-- What R12 says of the beeps' step widths and of the descending chirp. -/
theorem steps_spec (c : Config) :
    (c.data.stepBeepHigh ≤ 255 ∧ c.data.stepBeepLow ≤ 255) ∧
      ((c.data.stepsChirpDown.length = 2 ∨ c.data.stepsChirpDown.length = 3) ∧
        ∀ v ∈ c.data.stepsChirpDown, v ≤ 255) :=
  have ⟨_, _, _, _, hsteps, _⟩ := c.data.wf_iff.mp c.ok
  c.data.stepsOk_iff.mp hsteps

end Sys2Proof.Config

namespace Sys2Proof.Machine

/-! ### The step of each state of the sequencer (R103) -/

theorem ctrlStep_of_mask (c : Config) {s : State} (h : s.ctrlPc = .mask) : ctrlStep c s = mask s := by
  simp [ctrlStep, h]

theorem ctrlStep_of_resolve (c : Config) {s : State} (h : s.ctrlPc = .resolve) : ctrlStep c s = resolve c s := by
  simp [ctrlStep, h]

theorem ctrlStep_of_setHi (c : Config) {s : State} (h : s.ctrlPc = .setHi) : ctrlStep c s = setHi s := by
  simp [ctrlStep, h]

theorem ctrlStep_of_setLo (c : Config) {s : State} (h : s.ctrlPc = .setLo) : ctrlStep c s = setLo s := by
  simp [ctrlStep, h]

theorem ctrlStep_of_gateOn (c : Config) {s : State} (h : s.ctrlPc = .gateOn) : ctrlStep c s = gateOn s := by
  simp [ctrlStep, h]

theorem ctrlStep_of_nextHi (c : Config) {s : State} (h : s.ctrlPc = .nextHi) : ctrlStep c s = nextHi s := by
  simp [ctrlStep, h]

theorem ctrlStep_of_gateOff (c : Config) {s : State} (h : s.ctrlPc = .gateOff) : ctrlStep c s = gateOff s := by
  simp [ctrlStep, h]

theorem ctrlStep_of_zeroHi (c : Config) {s : State} (h : s.ctrlPc = .zeroHi) : ctrlStep c s = zeroHi s := by
  simp [ctrlStep, h]

theorem ctrlStep_of_zeroLo (c : Config) {s : State} (h : s.ctrlPc = .zeroLo) : ctrlStep c s = zeroLo s := by
  simp [ctrlStep, h]

theorem ctrlStep_of_unmask (c : Config) {s : State} (h : s.ctrlPc = .unmask) : ctrlStep c s = unmask s := by
  simp [ctrlStep, h]

/-- Settles O34: the step is `mask`, whatever the code. -/
theorem maskDisablesDialInterrupts : Obligations.MaskDisablesDialInterrupts :=
  fun c _ h => ctrlStep_of_mask c h

/-- Settles O36: the steps are `setHi` and `setLo`. -/
theorem setupWritesStepWidths : Obligations.SetupWritesStepWidths :=
  fun c _ => ⟨ctrlStep_of_setHi c, ctrlStep_of_setLo c⟩

/-- Settles O37: the two ways of `gateOn`. -/
theorem gateOnOpensForAudible : Obligations.GateOnOpensForAudible := by
  refine fun c s h => ⟨fun ha => ?_, fun ha => ?_⟩
  · rw [ctrlStep_of_gateOn c h, gateOn, if_pos ha]
    rfl
  · rw [ctrlStep_of_gateOn c h, gateOn, if_neg (Bool.eq_false_iff.mp ha)]
    rfl

/-- NEXT_HI by the number of the segment that begins. -/
theorem ctrlStep_nextHi (c : Config) {s : State} (h : s.ctrlPc = .nextHi) {k : Fin 3} (hk : s.segIdx.val = k.val) :
    ctrlStep c s = { s with stepHi := segHiAt s.segHi k, ctrlPc := .waitStart } := by
  rw [ctrlStep_of_nextHi c h, nextHi, Fin.eq_of_val_eq hk]
  rfl

/-- Settles O38: the notes of the segments 1 and 2. -/
theorem nextHiChangesOnlyHighStep : Obligations.NextHiChangesOnlyHighStep :=
  fun c _ h => ⟨ctrlStep_nextHi c h (k := 1), ctrlStep_nextHi c h (k := 2)⟩

/-- Settles O39: the step is `gateOff`, after which the closed gate alone decides the pin (R31). -/
theorem gateOffForcesPinLow : Obligations.GateOffForcesPinLow := by
  refine fun c s h => ⟨ctrlStep_of_gateOff c h, fun hpin => ?_⟩
  rw [ctrlStep_of_gateOff c h]
  exact State.pin_of_closed hpin rfl

/-- Settles O40: the steps are `zeroHi` and `zeroLo`. -/
theorem teardownZeroesStepWidths : Obligations.TeardownZeroesStepWidths :=
  fun c _ => ⟨ctrlStep_of_zeroHi c, ctrlStep_of_zeroLo c⟩

/-- The latched word is the one word that decodes to the PLAY of the latches (log entry 9). -/
theorem latchedWord_of_decode {s : State} {w : Word} (h : decode w = .ok (.play s.cmdCode s.cmdDur)) :
    s.latchedWord = w :=
  encode_of_decode h

/-- UNMASK's events in one piece: INHIBIT(0), then the PLAY's DONE. -/
theorem unmask_history (s : State) : (unmask s).history = s.history ++ [.inhibit false, .done s.latchedWord] :=
  List.append_assoc _ _ _

/-- Settles O41: the step is `unmask`, and the word of its DONE is `w`. -/
theorem unmaskCompletesPlay : Obligations.UnmaskCompletesPlay := by
  intro c s w h hd
  rw [ctrlStep_of_unmask c h, ← latchedWord_of_decode hd, ← unmask_history]
  rfl

/-- The body of a PLAY of duration 0 (R104). -/
theorem performPlay_zero (code : Code) {s : State} (ht : s.timerOn = true) :
    performPlay code 0#16 s =
      ({ s with cmdCode := code, cmdDur := 0#16 } : State).complete (encode (.play code 0#16)) := by
  simp [performPlay, ht]

/-- Settles O13: at IDLE and after INIT the word is accepted, and a duration of 0 completes it there. -/
theorem playOfZeroDurationIsNoOp : Obligations.PlayOfZeroDurationIsNoOp := by
  intro w code s hd hf hp ht
  obtain rfl := encode_of_decode hd
  rw [exec, execPlay, issue_idle hf hp, performPlay_zero code (s := s.emit _) ht]
  simp only [State.complete, State.emit, List.append_assoc]
  rfl

/-! ### What a HOST step can do (R130, R132) -/

/-- The state in which ISSUE judges the word `w`: it has left the host program, the HOST waits for its DONE, and its CMD is
in the history. -/
def State.issued (s : State) (w : Word) (rest : List Word) : State :=
  ({ s with hostProg := rest, hostWait := some w } : State).emit (.cmd w)

/-- Everything that ISSUE can make of a word at IDLE. -/
inductive State.Accepts (s : State) : Word → State → Prop
  | illegal (w : Word) (hd : decode w = .illegal w) : s.Accepts w (s.raise illegalCommand w)
  | init : s.Accepts (encode .init) (performInit s)
  | early (code : Code) (dur : Duration) (ht : s.timerOn = false) :
    s.Accepts (encode (.play code dur)) (s.raise notInitialized (encode (.play code dur)))
  | noOp (code : Code) (ht : s.timerOn = true) :
    s.Accepts (encode (.play code 0#16))
      (({ s with cmdCode := code, cmdDur := 0#16 } : State).complete (encode (.play code 0#16)))
  | start (code : Code) (dur : Duration) (ht : s.timerOn = true) (hd : dur ≠ 0#16) :
    s.Accepts (encode (.play code dur)) (({ s with cmdCode := code, cmdDur := dur } : State).goto .mask)

theorem performPlay_accepts (code : Code) (dur : Duration) (s : State) :
    s.Accepts (encode (.play code dur)) (performPlay code dur s) := by
  obtain ⟨ht, h⟩ | ⟨ht, rfl, h⟩ | ⟨ht, hd, h⟩ := performPlay_cases code dur s <;> rw [h]
  · exact .early code dur ht
  · exact .noOp code ht
  · exact .start code dur ht hd

/-- A HOST step issues the next word: BUSY while a PLAY is in progress, and at IDLE what the word does. -/
theorem hostStep_issues {s t : State} (h : hostStep s = .next t) :
    ∃ w rest, s.hostProg = w :: rest ∧
      ((s.ctrlPc ≠ .idle ∧ t = (s.issued w rest).raise busyFault w) ∨
        (s.ctrlPc = .idle ∧ (s.issued w rest).Accepts w t)) := by
  obtain ⟨w, rest, hw, ⟨i, hd, hi⟩ | ⟨hd, hi⟩⟩ := hostStep_cases h
  · obtain rfl := encode_of_decode hd
    refine ⟨_, rest, hw, ?_⟩
    cases i with
    | init =>
      obtain ⟨-, hbusy | ⟨hidle, rfl⟩⟩ := issue_cases hi
      · exact .inl hbusy
      · exact .inr ⟨hidle, .init⟩
    | play code dur =>
      obtain ⟨-, hbusy | ⟨hidle, rfl⟩⟩ := issue_cases hi
      · exact .inl hbusy
      · exact .inr ⟨hidle, performPlay_accepts code dur _⟩
  · obtain ⟨-, hbusy | ⟨hidle, rfl⟩⟩ := issue_cases hi
    · exact ⟨w, rest, hw, .inl hbusy⟩
    · exact ⟨w, rest, hw, .inr ⟨hidle, .illegal w hd⟩⟩

/-- A HOST step moves the sequencer only by starting a PLAY. -/
theorem hostStep_ctrlPc {s t : State} (h : hostStep s = .next t) :
    t.ctrlPc = s.ctrlPc ∨ (s.ctrlPc = .idle ∧ t.ctrlPc = .mask) := by
  obtain ⟨w, rest, -, ⟨-, rfl⟩ | ⟨hidle, hw⟩⟩ := hostStep_issues h
  · exact .inl rfl
  · cases hw with
    | start => exact .inr ⟨hidle, rfl⟩
    | illegal | init | early | noOp => exact .inl rfl

/-! ### The sequence of one PLAY (R103) -/

/-- The moves of the sequencer. -/
def playSequence : List (CtrlPc × CtrlPc) :=
  [(.idle, .mask), (.mask, .resolve), (.resolve, .setHi), (.setHi, .setLo), (.setLo, .gateOn), (.gateOn, .waitStart),
    (.waitStart, .wait), (.wait, .nextHi), (.nextHi, .waitStart), (.wait, .gateOff), (.gateOff, .zeroHi),
    (.zeroHi, .zeroLo), (.zeroLo, .unmask), (.unmask, .idle)]

/-- A CTRL step makes the next move of the sequence. -/
theorem ctrlStep_order (c : Config) {s : State} (hb : s.ctrlPc ≠ .idle) :
    (s.ctrlPc, (ctrlStep c s).ctrlPc) ∈ playSequence := by
  cases hp : s.ctrlPc with
  | idle => exact absurd hp hb
  | wait => obtain ⟨-, h⟩ | ⟨-, h⟩ := wait_cases s <;> simp [ctrlStep, hp, h, playSequence]
  | _ =>
    simp [ctrlStep, hp, playSequence, mask, resolve, setHi, setLo, gateOn, waitStart, nextHi, gateOff, zeroHi, zeroLo,
      unmask]

/-- CTRL has no step at IDLE (R122). -/
theorem busy_of_ctrl_enabled {s : State} (h : s.enabled .ctrl = true) : s.ctrlPc ≠ .idle := by
  intro hp
  simp [State.enabled, State.ctrlReady, State.busy, hp] at h

/-- Settles O46: CTRL makes the moves of the sequence but the first, which HOST makes; TICK makes none. -/
theorem sequencerOrder : Obligations.SequencerOrder := by
  intro c s t h hne
  obtain ⟨-, a, sch, n, ha, hstep⟩ := stepWith_cases h
  cases a with
  | host =>
    obtain hkeep | ⟨hs, ht⟩ := hostStep_ctrlPc hstep
    · exact absurd hkeep hne
    · rw [hs, ht]
      exact List.mem_cons_self
  | ctrl =>
    cases hstep
    exact ctrlStep_order c (s := { s with schedule := sch, draws := n }) (busy_of_ctrl_enabled ha)
  | tick => cases hstep; exact absurd rfl hne

/-- The sequencer comes to IDLE from UNMASK alone. -/
theorem unmask_of_step_to_idle {c : Config} {s t : State} (h : stepWith c s = .next t) (hs : s.ctrlPc ≠ .idle)
    (ht : t.ctrlPc = .idle) : s.ctrlPc = .unmask := by
  have hmove := sequencerOrder c s t h (ht ▸ hs.symm)
  rw [ht] at hmove
  simpa using hmove

/-! ### The invariant at IDLE and at MASK -/

/-- The registers outside a tone (R120, R29, R131). -/
structure State.AtRest (s : State) : Prop where
  init : s.pinOut = s.timerOn
  stepHi : s.stepHi = 0#8
  stepLo : s.stepLo = 0#8
  gate : s.gateEn = false
  inhibit : s.dialInhibit = false

theorem State.Inv.atRest {s : State} (h : s.Inv) (hp : s.ctrlPc = .idle) : s.AtRest where
  init := h.init
  stepHi := h.stepHi (by rw [hp]; rfl)
  stepLo := h.stepLo (by rw [hp]; rfl)
  gate := by rw [h.gate, hp]; rfl
  inhibit := by rw [h.inhibit, hp]; rfl

/-- Before the sequence begins, and at its first state, the invariant asks for registers at rest and speaks of no tone. -/
theorem State.AtRest.inv {s : State} (h : s.AtRest) (hp : s.ctrlPc = .idle ∨ s.ctrlPc = .mask)
    (playing : s.ctrlPc ≠ .idle → s.timerOn = true)
    (waiting : s.fault = none → s.hostWait = if s.ctrlPc = .idle then none else some s.latchedWord)
    (nonzero : s.ctrlPc ≠ .idle → s.cmdDur ≠ 0#16) : s.Inv where
  init := h.init
  playing := playing
  stepHi := fun _ => h.stepHi
  stepLo := fun _ => h.stepLo
  gate := by obtain hp | hp := hp <;> rw [h.gate, hp] <;> rfl
  inhibit := by obtain hp | hp := hp <;> rw [h.inhibit, hp] <;> rfl
  segment := by obtain hp | hp := hp <;> rw [hp] <;> exact nofun
  target := by obtain hp | hp := hp <;> rw [hp] <;> exact nofun
  next := by obtain hp | hp := hp <;> rw [hp] <;> exact nofun
  waiting := waiting
  nonzero := nonzero

/-- At IDLE the HOST waits for nothing. -/
theorem State.AtRest.inv_of_idle {s : State} (h : s.AtRest) (hp : s.ctrlPc = .idle)
    (hw : s.fault = none → s.hostWait = none) : s.Inv :=
  h.inv (.inl hp) (absurd hp) (fun hf => (hw hf).trans (if_pos hp).symm) (absurd hp)

/-- At MASK it waits for the PLAY that starts, after INIT and of nonzero duration. -/
theorem State.AtRest.inv_of_mask {s : State} (h : s.AtRest) (hp : s.ctrlPc = .mask) (ht : s.timerOn = true)
    (hw : s.hostWait = some s.latchedWord) (hd : s.cmdDur ≠ 0#16) : s.Inv :=
  h.inv (.inr hp) (fun _ => ht) (fun _ => hw.trans (if_neg (by rw [hp]; exact nofun)).symm) (fun _ => hd)

/-- A HOST that waits for nothing, with no fault, finds the sequencer at IDLE (R129). -/
theorem State.Inv.idle_of_host_enabled {s : State} (h : s.Inv) (ha : s.enabled .host = true) : s.ctrlPc = .idle := by
  by_contra hb
  have hf := fault_none_of_enabled ha
  exact Bool.false_ne_true ((h.inPlay hf hb).not_enabled_host.symm.trans ha)

/-! ### Every step keeps the invariant -/

theorem State.Inv.reschedule {s : State} (h : s.Inv) (sch : List Agent) (n : Nat) :
    ({ s with schedule := sch, draws := n } : State).Inv :=
  { h with }

theorem tick_inv (c : Config) {s : State} (h : s.Inv) : (tick c s).Inv :=
  { h with }

/-- What ISSUE does at IDLE: a fault ends all claims on the HOST's wait, a completed word frees the HOST, and a PLAY that
starts is the word that it waits for. -/
theorem State.Accepts.inv {s t : State} {w : Word} (h : s.Accepts w t) (hr : s.AtRest) (hp : s.ctrlPc = .idle)
    (hw : s.hostWait = some w) : t.Inv := by
  cases h with
  | illegal | early => exact State.AtRest.inv_of_idle { hr with } hp nofun
  | init => exact State.AtRest.inv_of_idle { hr with init := rfl } hp fun _ => if_pos hw
  | noOp => exact State.AtRest.inv_of_idle { hr with } hp fun _ => if_pos hw
  | start code dur ht hd => exact State.AtRest.inv_of_mask { hr with } rfl ht hw hd

theorem hostStep_inv {s t : State} (h : s.Inv) (ha : s.enabled .host = true) (hstep : hostStep s = .next t) :
    t.Inv := by
  have hp := h.idle_of_host_enabled ha
  obtain ⟨w, rest, -, ⟨hb, -⟩ | ⟨-, hw⟩⟩ := hostStep_issues hstep
  · exact absurd hp hb
  · exact hw.inv { h.atRest hp with } hp rfl

/-! #### The clauses of the invariant over a CTRL step -/

/-- SET_HI and NEXT_HI write `step_hi` during a tone, and ZERO_HI writes the 0 that the later states ask for. -/
theorem ctrlStep_hiZero (c : Config) {s : State} (h : s.ctrlPc.hiZero = true → s.stepHi = 0#8)
    (hz : (ctrlStep c s).ctrlPc.hiZero = true) : (ctrlStep c s).stepHi = 0#8 := by
  cases hp : s.ctrlPc <;> simp only [ctrlStep, hp] at hz ⊢ <;> rw [hp] at h
  case zeroHi => rfl
  case idle | mask | resolve | zeroLo | unmask => exact h rfl
  case setHi | setLo | gateOn | waitStart | nextHi | gateOff => exact nomatch hz
  case wait => obtain ⟨-, hw⟩ | ⟨-, hw⟩ := wait_cases s <;> rw [hw] at hz <;> exact nomatch hz

/-- SET_LO writes `step_lo` for a tone, and ZERO_LO writes the 0 that the later states ask for. -/
theorem ctrlStep_loZero (c : Config) {s : State} (h : s.ctrlPc.loZero = true → s.stepLo = 0#8)
    (hz : (ctrlStep c s).ctrlPc.loZero = true) : (ctrlStep c s).stepLo = 0#8 := by
  cases hp : s.ctrlPc <;> simp only [ctrlStep, hp] at hz ⊢ <;> rw [hp] at h
  case zeroLo => rfl
  case idle | mask | resolve | setHi | unmask => exact h rfl
  case setLo | gateOn | waitStart | nextHi | gateOff | zeroHi => exact nomatch hz
  case wait => obtain ⟨-, hw⟩ | ⟨-, hw⟩ := wait_cases s <;> rw [hw] at hz <;> exact nomatch hz

/-- GATE_ON opens the gate for an audible tone, GATE_OFF closes it, and RESOLVE writes `audible` before either. -/
theorem ctrlStep_gate (c : Config) {s : State} (h : s.gateEn = (s.ctrlPc.toneOn && s.audible)) :
    (ctrlStep c s).gateEn = ((ctrlStep c s).ctrlPc.toneOn && (ctrlStep c s).audible) := by
  cases hp : s.ctrlPc <;> simp only [ctrlStep, hp] <;> rw [hp] at h
  case gateOn => obtain ⟨ha, hg⟩ | ⟨ha, hg⟩ := gateOn_cases s <;> rw [hg] <;> simp [CtrlPc.toneOn, ha, h]
  case wait => obtain ⟨-, hw⟩ | ⟨-, hw⟩ := wait_cases s <;> rw [hw] <;> exact h
  case gateOff => rfl
  case idle | mask | resolve | setHi | setLo | waitStart | nextHi | zeroHi | zeroLo | unmask => exact h

/-- MASK writes `dial_inhibit = 1` and UNMASK writes 0. -/
theorem ctrlStep_inhibit (c : Config) {s : State} (h : s.dialInhibit = s.ctrlPc.dialsOff) :
    (ctrlStep c s).dialInhibit = (ctrlStep c s).ctrlPc.dialsOff := by
  cases hp : s.ctrlPc <;> simp only [ctrlStep, hp] <;> rw [hp] at h
  case gateOn => obtain ⟨-, hg⟩ | ⟨-, hg⟩ := gateOn_cases s <;> rw [hg] <;> exact h
  case wait => obtain ⟨-, hw⟩ | ⟨-, hw⟩ := wait_cases s <;> rw [hw] <;> exact h
  case mask | unmask => rfl
  case idle | resolve | setHi | setLo | waitStart | nextHi | gateOff | zeroHi | zeroLo => exact h

/-- RESOLVE begins with the first segment, and WAIT goes on to another one only while one is left. -/
theorem ctrlStep_segment (c : Config) {s : State}
    (h : s.ctrlPc.segmented = true → s.segIdx.val < segCountNat s.nSeg)
    (hseg : (ctrlStep c s).ctrlPc.segmented = true) :
    (ctrlStep c s).segIdx.val < segCountNat (ctrlStep c s).nSeg := by
  cases hp : s.ctrlPc <;> simp only [ctrlStep, hp] at hseg ⊢ <;> rw [hp] at h
  case resolve => exact segCountNat_pos _
  case gateOn => obtain ⟨-, hg⟩ | ⟨-, hg⟩ := gateOn_cases s <;> rw [hg] <;> exact h rfl
  case wait =>
    obtain ⟨hleft, hw⟩ | ⟨-, hw⟩ := wait_cases s <;> rw [hw]
    · exact (segIdx_add_one_val hleft).trans_lt hleft
    · exact h rfl
  case setHi | setLo | waitStart | nextHi => exact h rfl
  case idle | mask | gateOff | zeroHi | zeroLo | unmask => exact nomatch hseg

/-- NEXT_HI comes after WAIT alone, which has counted the segment (R114). -/
theorem ctrlStep_next (c : Config) {s : State} (hb : s.ctrlPc ≠ .idle) (hn : (ctrlStep c s).ctrlPc = .nextHi) :
    1 ≤ (ctrlStep c s).segIdx.val := by
  have hp : s.ctrlPc = .wait := by
    have hmove := ctrlStep_order c hb
    rw [hn] at hmove
    simpa [playSequence] using hmove
  rw [ctrlStep_of_wait c hp] at hn ⊢
  obtain ⟨hleft, hw⟩ | ⟨-, hw⟩ := wait_cases s <;> rw [hw] at hn ⊢
  · exact (segIdx_add_one_val hleft).symm ▸ Nat.le_add_left 1 _
  · exact nomatch hn

/-- UNMASK frees the HOST, which waits for the latched PLAY; before that neither the wait nor the latches change. -/
theorem ctrlStep_waiting (c : Config) {s : State} (hb : s.ctrlPc ≠ .idle) (h : s.hostWait = some s.latchedWord) :
    (ctrlStep c s).hostWait = if (ctrlStep c s).ctrlPc = .idle then none else some (ctrlStep c s).latchedWord := by
  by_cases hu : s.ctrlPc = .unmask
  · rw [ctrlStep_of_unmask c hu]
    exact if_pos h
  · obtain ⟨-, hwait, hword⟩ := ctrlStep_command c hu
    rw [hwait, hword, if_neg (ctrlStep_busy c hb hu), h]

/-- No CTRL step writes the command latches (R33). -/
theorem ctrlStep_commandLatches (c : Config) (s : State) :
    (ctrlStep c s).cmdCode = s.cmdCode ∧ (ctrlStep c s).cmdDur = s.cmdDur := by
  cases hp : s.ctrlPc with
  | gateOn => obtain ⟨-, h⟩ | ⟨-, h⟩ := gateOn_cases s <;> simp [ctrlStep, hp, h]
  | wait => obtain ⟨-, h⟩ | ⟨-, h⟩ := wait_cases s <;> simp [ctrlStep, hp, h]
  | _ => simp [ctrlStep, hp, mask, resolve, setHi, setLo, waitStart, nextHi, gateOff, zeroHi, zeroLo, unmask]

/-- A CTRL step, clause by clause. -/
theorem ctrlStep_inv (c : Config) {s : State} (h : s.Inv) (ha : s.enabled .ctrl = true) : (ctrlStep c s).Inv := by
  have hb := busy_of_ctrl_enabled ha
  have hplay := h.inPlay (fault_none_of_enabled ha) hb
  obtain ⟨-, -, -, -, htimer, hpin⟩ := ctrlStep_shared c s
  obtain ⟨-, hdur⟩ := ctrlStep_commandLatches c s
  exact {
    init := hpin.trans (h.init.trans htimer.symm)
    playing := fun _ => htimer.trans hplay.timer
    stepHi := ctrlStep_hiZero c h.stepHi
    stepLo := ctrlStep_loZero c h.stepLo
    gate := ctrlStep_gate c h.gate
    inhibit := ctrlStep_inhibit c h.inhibit
    segment := ctrlStep_segment c h.segment
    target := ctrlStep_target c h.target
    next := ctrlStep_next c hb
    waiting := fun _ => ctrlStep_waiting c hb hplay.waiting
    nonzero := fun _ => hdur.trans_ne (h.nonzero hb) }

/-- Every step, under every configuration. -/
theorem stepWith_inv {c : Config} {s t : State} (h : s.Inv) (hstep : stepWith c s = .next t) : t.Inv := by
  obtain ⟨-, a, sch, n, ha, hmove⟩ := stepWith_cases hstep
  rw [← enabled_schedule s sch n] at ha
  have hs := h.reschedule sch n
  cases a with
  | host => exact hostStep_inv hs ha hmove
  | ctrl => cases hmove; exact ctrlStep_inv c hs ha
  | tick => cases hmove; exact tick_inv c hs

/-- Settles O49: the machine's configuration is one of those of `stepWith_inv`. -/
theorem stepKeepsInvariant : Obligations.StepKeepsInvariant :=
  fun _ _ => stepWith_inv

/-! ### The end of a PLAY (R120) -/

/-- The step that ends a PLAY is UNMASK's: the HOST waits for the PLAY, and TICK does not move the sequencer. -/
theorem eq_unmask_of_step_to_idle {c : Config} {s t : State} (h : s.Inv) (hstep : stepWith c s = .next t)
    (hs : s.ctrlPc ≠ .idle) (ht : t.ctrlPc = .idle) :
    ∃ sch n, t = unmask { s with schedule := sch, draws := n } := by
  have hu := unmask_of_step_to_idle hstep hs ht
  obtain ⟨-, a, sch, n, ha, hmove⟩ := stepWith_cases hstep
  cases a with
  | host => exact absurd (h.idle_of_host_enabled ha) hs
  | ctrl => cases hmove; exact ⟨sch, n, ctrlStep_of_unmask c hu⟩
  | tick => cases hmove; exact absurd ht hs

/-- Settles O52: at IDLE the invariant leaves the registers at rest, and the step is UNMASK's. -/
theorem playLeavesBlockQuiet : Obligations.PlayLeavesBlockQuiet := by
  intro c s t h hstep hs ht
  have htinv := stepWith_inv h hstep
  obtain ⟨-, hhi, hlo, hgate, hinhibit⟩ := htinv.atRest ht
  obtain ⟨hf, -⟩ := stepWith_cases hstep
  obtain ⟨sch, n, rfl⟩ := eq_unmask_of_step_to_idle h hstep hs ht
  exact ⟨hhi, hlo, hgate, hinhibit, htinv.waiting hf, unmask_history _⟩

/-! ### The notes of a code as numbers (R106 to R109) -/

/-- The notes as the list that a configuration writes them in. -/
def Notes.toNats : Notes → List Nat
  | .one a => [a.toNat]
  | .two a b => [a.toNat, b.toNat]
  | .three a b d => [a.toNat, b.toNat, d.toNat]

theorem segCountNat_noteCount (notes : Notes) : segCountNat (noteCount notes) = notes.toNats.length := by
  cases notes <;> rfl

/-- RESOLVE writes the notes in order, and no entry of `seg_hi` from their number on. -/
theorem segHiAt_writeNotes_spec (h : SegHi) (notes : Notes) (k : Fin 3) :
    if k.val < notes.toNats.length then notes.toNats[k.val]? = some (segHiAt (writeNotes h notes) k).toNat
    else segHiAt (writeNotes h notes) k = segHiAt h k := by
  cases notes <;> fin_cases k <;> simp [Notes.toNats, writeNotes, segHiAt]

/-- A step width of 0..255 loses nothing in 8 bits. -/
theorem toNat_ofNat_eight {v : Nat} (h : v ≤ 255) : (BitVec.ofNat 8 v).toNat = v :=
  (BitVec.toNat_ofNat v 8).trans (Nat.mod_eq_of_lt (Nat.lt_succ_of_le h))

/-- A well-formed configuration's descending chirp has two or three notes, the ones that it lists. -/
theorem stepsChirpDown_toNats (c : Config) : (stepsChirpDown c).toNats = c.data.stepsChirpDown := by
  obtain ⟨-, htwo | hthree, hle⟩ := c.steps_spec
  · obtain ⟨a, b, hl⟩ := List.length_eq_two.mp htwo
    simp only [hl, List.forall_mem_cons] at hle
    obtain ⟨ha, hb, -⟩ := hle
    simp only [stepsChirpDown, hl, Notes.toNats, toNat_ofNat_eight ha, toNat_ofNat_eight hb]
  · obtain ⟨a, b, d, hl⟩ := List.length_eq_three.mp hthree
    simp only [hl, List.forall_mem_cons] at hle
    obtain ⟨ha, hb, hd, -⟩ := hle
    simp only [stepsChirpDown, hl, Notes.toNats, toNat_ofNat_eight ha, toNat_ofNat_eight hb, toNat_ofNat_eight hd]

/-! ### RESOLVE -/

/-- The target that RESOLVE writes is exact: R12's bound keeps it inside 32 bits (log entry 16). -/
theorem resolve_segTicks (c : Config) (s : State) :
    (resolve c s).segTicks.toNat = segmentTicks c s.cmdDur (noteCount (toneOf c (codeClass c s.cmdCode)).notes) :=
  Nat.mod_eq_of_lt ((segmentTicks_le c _ _).trans_lt (by decide))

/-- RESOLVE writes the tone of its code's class. -/
theorem resolve_tone (c : Config) {s : State} {x : CodeClass} (h : codeClass c s.cmdCode = x) :
    (resolve c s).segLo = (toneOf c x).lo ∧ (resolve c s).audible = (toneOf c x).audible := by
  subst h
  exact ⟨rfl, rfl⟩

/-- Settles O35: the notes are those of the class's tone, and the target is the quotient by their number. -/
theorem resolveTurnsCodeIntoNotes : Obligations.ResolveTurnsCodeIntoNotes := by
  intro c s hp
  obtain ⟨⟨hhigh, hlow⟩, -⟩ := c.steps_spec
  refine ⟨(toneOf c (codeClass c s.cmdCode)).notes.toNats, resolve c s, ctrlStep_of_resolve c hp, fun k h => ?_,
    fun h => ?_, fun h => ?_, fun h => ?_, fun h => ?_, fun h => ?_, segCountNat_noteCount _,
    segHiAt_writeNotes_spec s.segHi _, ?target, rfl⟩
  case target => rw [resolve_segTicks, segmentTicks, ticksOf, segCountNat_noteCount]
  all_goals
    obtain ⟨hlo, haudible⟩ := resolve_tone c h
    rw [h]
  · exact ⟨haudible, _, freqMap_getElem?_val c k, congrArg ([·]) (BitVec.toNat_setWidth_of_le (by decide)),
      (congrArg BitVec.toNat hlo).trans (BitVec.toNat_setWidth_of_le (by decide))⟩
  · exact ⟨congrArg ([·]) (toNat_ofNat_eight hhigh), hlo, haudible⟩
  · exact ⟨congrArg ([·]) (toNat_ofNat_eight hlow), hlo, haudible⟩
  · exact ⟨rfl, hlo, haudible⟩
  · exact ⟨stepsChirpDown_toNats c, hlo, haudible⟩
  · exact ⟨rfl, hlo, haudible⟩

/-! ### Runs -/

/-- What every step keeps while `Go` holds before it, a run keeps. -/
theorem runWith_keeps {c : Config} {P Go : State → Prop}
    (hstep : ∀ u v, Go u → P u → stepWith c u = .next v → P v) {k : Nat} {s t : State} (hs : P s)
    (hrun : runWith c k s = .next t) (hgo : ∀ j u, j < k → runWith c j s = .next u → Go u) : P t := by
  induction k generalizing s with
  | zero => cases hrun; exact hs
  | succ k ih =>
    simp only [runWith] at hrun
    cases hv : stepWith c s with
    | next v =>
      rw [hv] at hrun
      refine ih (hstep s v (hgo 0 s k.succ_pos rfl) hs hv) hrun fun j u hj hu => ?_
      exact hgo (j + 1) u (Nat.succ_lt_succ hj) (by simp only [runWith, hv, hu])
    | fault r => rw [hv] at hrun; cases hrun
    | refused r => rw [hv] at hrun; cases hrun

/-! ### The PLAY that a run performs -/

/-- That a PLAY of `code` and `dur` is in progress: the latches hold both, and after RESOLVE the segment registers hold its
tone (R106, R110). -/
structure State.Performs (c : Config) (code : Code) (dur : Duration) (s : State) : Prop where
  busy : s.ctrlPc ≠ .idle
  cmdCode : s.cmdCode = code
  cmdDur : s.cmdDur = dur
  tone : s.ctrlPc ≠ .mask → s.ctrlPc ≠ .resolve →
    s.nSeg = noteCount (toneOf c (codeClass c code)).notes ∧
      s.segTicks.toNat = segmentTicks c dur (noteCount (toneOf c (codeClass c code)).notes) ∧
      s.audible = (toneOf c (codeClass c code)).audible

theorem State.performs_of_mask (c : Config) {s : State} (h : s.ctrlPc = .mask) :
    s.Performs c s.cmdCode s.cmdDur :=
  ⟨by rw [h]; exact nofun, rfl, rfl, fun hm => absurd h hm⟩

/-- RESOLVE alone writes these segment registers. -/
theorem ctrlStep_toneLatches (c : Config) {s : State} (hr : s.ctrlPc ≠ .resolve) :
    (ctrlStep c s).nSeg = s.nSeg ∧ (ctrlStep c s).segTicks = s.segTicks ∧ (ctrlStep c s).audible = s.audible := by
  cases hp : s.ctrlPc with
  | resolve => exact absurd hp hr
  | gateOn => obtain ⟨-, h⟩ | ⟨-, h⟩ := gateOn_cases s <;> simp [ctrlStep, hp, h]
  | wait => obtain ⟨-, h⟩ | ⟨-, h⟩ := wait_cases s <;> simp [ctrlStep, hp, h]
  | _ => simp [ctrlStep, hp, mask, setHi, setLo, waitStart, nextHi, gateOff, zeroHi, zeroLo, unmask]

theorem ctrlStep_performs {c : Config} {code : Code} {dur : Duration} {s : State} (h : s.Performs c code dur)
    (ht : (ctrlStep c s).ctrlPc ≠ .idle) : (ctrlStep c s).Performs c code dur := by
  obtain ⟨hcode, hdur⟩ := ctrlStep_commandLatches c s
  refine ⟨ht, hcode.trans h.cmdCode, hdur.trans h.cmdDur, fun _ hr' => ?_⟩
  by_cases hr : s.ctrlPc = .resolve
  · rw [ctrlStep_of_resolve c hr, ← h.cmdCode, ← h.cmdDur]
    exact ⟨rfl, resolve_segTicks c s, rfl⟩
  · have hm : s.ctrlPc ≠ .mask := fun hm => hr' (by rw [ctrlStep_of_mask c hm]; rfl)
    obtain ⟨hn, htarget, haudible⟩ := h.tone hm hr
    obtain ⟨hn', htarget', haudible'⟩ := ctrlStep_toneLatches c hr
    exact ⟨hn'.trans hn, (congrArg BitVec.toNat htarget').trans htarget, haudible'.trans haudible⟩

/-- Until IDLE no step ends the PLAY or changes its tone: a word that arrives is BUSY, whoever issues it. -/
theorem stepWith_performs {c : Config} {code : Code} {dur : Duration} {s t : State} (h : s.Performs c code dur)
    (hstep : stepWith c s = .next t) (ht : t.ctrlPc ≠ .idle) : t.Performs c code dur := by
  obtain ⟨-, a, sch, n, -, hmove⟩ := stepWith_cases hstep
  have hs : ({ s with schedule := sch, draws := n } : State).Performs c code dur := { h with }
  cases a with
  | host =>
    obtain ⟨w, rest, -, ⟨-, rfl⟩ | ⟨hidle, -⟩⟩ := hostStep_issues hmove
    · exact { h with }
    · exact absurd hidle h.busy
  | ctrl => cases hmove; exact ctrlStep_performs hs ht
  | tick => cases hmove; exact { h with }

/-! ### The events that a step appends -/

/-- What a step from `s` to `t` does to the history and to the gate: it appends events, and GATE(1) among them, or an open
gate after a closed one, is GATE_ON's for an audible code (R113). -/
def OpensGateOnlyIfAudible (s t : State) : Prop :=
  ∃ es, t.history = s.history ++ es ∧
    ((.gate true ∈ es ∨ (s.gateEn = false ∧ t.gateEn = true)) → s.ctrlPc = .gateOn ∧ s.audible = true)

/-- Steps that append other events and do not open the gate. -/
theorem OpensGateOnlyIfAudible.of_closed {s t : State} (es : List Event) (hes : t.history = s.history ++ es)
    (hgate : .gate true ∉ es) (hen : t.gateEn = true → s.gateEn = true) : OpensGateOnlyIfAudible s t := by
  refine ⟨es, hes, fun hopen => ?_⟩
  obtain hmem | ⟨hs, ht⟩ := hopen
  · exact absurd hmem hgate
  · exact absurd (hs.symm.trans (hen ht)) Bool.false_ne_true

theorem ctrlStep_opensGate (c : Config) (s : State) : OpensGateOnlyIfAudible s (ctrlStep c s) := by
  have hnone : s.history = s.history ++ [] := (List.append_nil _).symm
  cases hp : s.ctrlPc <;> simp only [ctrlStep, hp]
  case mask => exact .of_closed [.inhibit true] rfl (by simp) id
  case gateOn =>
    obtain ⟨ha, hg⟩ | ⟨-, hg⟩ := gateOn_cases s <;> rw [hg]
    · exact ⟨[.gate true], rfl, fun _ => ⟨hp, ha⟩⟩
    · exact .of_closed [] hnone (by simp) id
  case wait => obtain ⟨-, hw⟩ | ⟨-, hw⟩ := wait_cases s <;> rw [hw] <;> exact .of_closed [] hnone (by simp) id
  case gateOff => exact .of_closed [.gate false] rfl (by simp) nofun
  case unmask => exact .of_closed _ (unmask_history s) (by simp) id
  case idle | resolve | setHi | setLo | waitStart | nextHi | zeroHi | zeroLo => exact .of_closed [] hnone (by simp) id

theorem hostStep_opensGate {s t : State} (h : hostStep s = .next t) : OpensGateOnlyIfAudible s t := by
  obtain ⟨w, rest, -, ⟨-, rfl⟩ | ⟨-, hw⟩⟩ := hostStep_issues h
  · exact .of_closed _ (List.append_assoc _ _ _) (by simp) id
  · cases hw with
    | illegal | init | early | noOp => exact .of_closed _ (List.append_assoc _ _ _) (by simp) id
    | start => exact .of_closed _ rfl (by simp) id

theorem stepWith_opensGate {c : Config} {s t : State} (h : stepWith c s = .next t) : OpensGateOnlyIfAudible s t := by
  obtain ⟨-, a, sch, n, -, hmove⟩ := stepWith_cases h
  cases a with
  | host => exact (hostStep_opensGate hmove :)
  | ctrl => cases hmove; exact (ctrlStep_opensGate c _ :)
  | tick => cases hmove; exact .of_closed [.sample _ _] rfl (by simp) id

/-! ### Silence (R109) -/

/-- The gate is closed, and no GATE(1) has been appended to `past`. -/
structure State.ClosedSince (past : List Event) (s : State) : Prop where
  gate : s.gateEn = false
  events : ∃ es, s.history = past ++ es ∧ .gate true ∉ es

/-- Only GATE_ON for an audible code ends it. -/
theorem State.ClosedSince.step {past : List Event} {s t : State} (h : s.ClosedSince past)
    (hst : OpensGateOnlyIfAudible s t) (hsilent : s.ctrlPc = .gateOn → s.audible = false) : t.ClosedSince past := by
  obtain ⟨hgate, es, hpast, hes⟩ := h
  obtain ⟨new, hnew, hopen⟩ := hst
  have hclosed : ¬(.gate true ∈ new ∨ (s.gateEn = false ∧ t.gateEn = true)) := fun ho => by
    obtain ⟨hp, ha⟩ := hopen ho
    exact Bool.false_ne_true ((hsilent hp).symm.trans ha)
  obtain ⟨hmem, hen⟩ := not_or.mp hclosed
  refine ⟨Bool.eq_false_iff.mpr fun ht => hen ⟨hgate, ht⟩, es ++ new, ?_, ?_⟩
  · rw [hnew, hpast, List.append_assoc]
  · exact fun hm => (List.mem_append.mp hm).elim hes hmem

/-- A PLAY in progress or just over, with the gate closed since `past`. -/
structure State.StaysClosed (c : Config) (code : Code) (dur : Duration) (past : List Event) (s : State) : Prop where
  play : s.ctrlPc ≠ .idle → s.Performs c code dur
  closed : s.ClosedSince past

/-- At GATE_ON the segment registers hold the tone of silence, for which it does not open the gate. -/
theorem State.StaysClosed.step {c : Config} {code : Code} {dur : Duration} {past : List Event} {s t : State}
    (hclass : codeClass c code = .silence) (hb : s.ctrlPc ≠ .idle) (h : s.StaysClosed c code dur past)
    (hstep : stepWith c s = .next t) : t.StaysClosed c code dur past := by
  have hplay := h.play hb
  refine ⟨stepWith_performs hplay hstep, h.closed.step (stepWith_opensGate hstep) fun hon => ?_⟩
  obtain ⟨-, -, haudible⟩ := hplay.tone (by rw [hon]; exact nofun) (by rw [hon]; exact nofun)
  rw [haudible, hclass]
  rfl

/-- Settles O57: at MASK no event has been appended, and every step up to IDLE keeps the gate closed. -/
theorem silenceNeverOpensGate : Obligations.SilenceNeverOpensGate := by
  intro c k s t hp hgate hclass hrun hbusy
  have hstart : s.StaysClosed c s.cmdCode s.cmdDur s.history :=
    ⟨fun _ => State.performs_of_mask c hp, hgate, [], (List.append_nil _).symm, List.not_mem_nil⟩
  obtain ⟨-, hclosed, es, hes, hmem⟩ := runWith_keeps (fun _ _ => State.StaysClosed.step hclass) hstart hrun hbusy
  rw [hes, List.drop_left]
  exact ⟨hclosed, hmem⟩

/-! ### The duration law (R121) -/

/-- How many TICK steps the waits of the current PLAY have seen at least: a segment's target and one more for each segment
that is over, and the counter's value during a WAIT. -/
def State.ticksWaited (s : State) : Nat :=
  match s.ctrlPc with
  | .idle | .mask | .resolve => 0
  | .setHi | .setLo | .gateOn | .waitStart | .nextHi => s.segIdx.val * (s.segTicks.toNat + 1)
  | .wait => s.segIdx.val * (s.segTicks.toNat + 1) + s.tickCnt.toNat
  | .gateOff | .zeroHi | .zeroLo | .unmask => segCountNat s.nSeg * (s.segTicks.toNat + 1)

/-- One TICK counts at most one. -/
theorem tick_ticksWaited_le (c : Config) (s : State) : (tick c s).ticksWaited ≤ s.ticksWaited + 1 := by
  have hcount : (s.tickCnt + 1#32).toNat ≤ s.tickCnt.toNat + 1 := by
    rw [BitVec.toNat_add]
    exact Nat.mod_le _ _
  cases hp : s.ctrlPc <;> simp only [State.ticksWaited, tick_ctrlPc, hp]
  case wait => exact Nat.add_le_add_left hcount _
  case idle | mask | resolve => exact Nat.zero_le _
  case setHi | setLo | gateOn | waitStart | nextHi | gateOff | zeroHi | zeroLo | unmask => exact Nat.le_succ _

/-- No CTRL step runs ahead of the TICKs: WAIT_START counts from 0, and WAIT ends a segment only once the counter is above
the target. -/
theorem ctrlStep_ticksWaited_le (c : Config) {s : State} (ha : s.enabled .ctrl = true) :
    (ctrlStep c s).ticksWaited ≤ s.ticksWaited := by
  cases hp : s.ctrlPc with
  | wait =>
    have hlift := (ctrl_enabled_at_wait_iff hp (fault_none_of_enabled ha)).mp ha
    have hsegment : (s.segIdx.val + 1) * (s.segTicks.toNat + 1) ≤ s.ticksWaited := by
      simp only [State.ticksWaited, hp, Nat.add_mul, Nat.one_mul]
      omega
    rw [ctrlStep_of_wait c hp]
    obtain ⟨hleft, hw⟩ | ⟨hlast, hw⟩ := wait_cases s <;> rw [hw]
    · rw [← segIdx_add_one_val hleft] at hsegment
      exact hsegment
    · exact (Nat.mul_le_mul_right _ hlast).trans hsegment
  | gateOn => obtain ⟨-, hg⟩ | ⟨-, hg⟩ := gateOn_cases s <;> simp [ctrlStep, hp, hg, State.ticksWaited]
  | _ =>
    simp [ctrlStep, hp, mask, resolve, setHi, setLo, waitStart, nextHi, gateOff, zeroHi, zeroLo, unmask,
      State.ticksWaited]

/-- A HOST step that starts a PLAY starts at 0. -/
theorem hostStep_ticksWaited_le {s t : State} (h : hostStep s = .next t) : t.ticksWaited ≤ s.ticksWaited := by
  obtain ⟨w, rest, -, ⟨-, rfl⟩ | ⟨hidle, -⟩⟩ := hostStep_issues h
  · exact le_rfl
  · have ht : t.ticksWaited = 0 := by
      obtain hpc | ⟨-, hpc⟩ := hostStep_ctrlPc h
      · simp only [State.ticksWaited, hpc, hidle]
      · simp only [State.ticksWaited, hpc]
    exact ht ▸ Nat.zero_le _

theorem OpensGateOnlyIfAudible.tickSteps_le {s t : State} (h : OpensGateOnlyIfAudible s t) :
    s.tickSteps ≤ t.tickSteps := by
  obtain ⟨es, hes, -⟩ := h
  rw [State.tickSteps, State.tickSteps, hes, List.countP_append]
  exact Nat.le_add_right _ _

theorem tick_tickSteps (c : Config) (s : State) : (tick c s).tickSteps = s.tickSteps + 1 := by
  simp [State.tickSteps, Event.isSample]

/-- Over every step the waits see no more TICKs than occur. -/
theorem stepWith_ticksWaited {c : Config} {s t : State} (h : stepWith c s = .next t) :
    s.tickSteps + t.ticksWaited ≤ t.tickSteps + s.ticksWaited := by
  have hsteps := (stepWith_opensGate h).tickSteps_le
  obtain ⟨-, a, sch, n, ha, hmove⟩ := stepWith_cases h
  rw [← enabled_schedule s sch n] at ha
  cases a with
  | host =>
    have hwaited := hostStep_ticksWaited_le hmove
    exact Nat.add_le_add hsteps hwaited
  | ctrl => cases hmove; exact Nat.add_le_add hsteps (ctrlStep_ticksWaited_le c ha)
  | tick =>
    cases hmove
    rw [tick_tickSteps, Nat.add_right_comm, Nat.add_assoc]
    exact Nat.add_le_add_left (tick_ticksWaited_le c _) _

theorem runWith_ticksWaited {c : Config} {k : Nat} {s t : State} (h : runWith c k s = .next t) :
    s.tickSteps + t.ticksWaited ≤ t.tickSteps + s.ticksWaited := by
  refine runWith_keeps (Go := fun _ => True)
    (P := fun u => s.tickSteps + u.ticksWaited ≤ u.tickSteps + s.ticksWaited) (fun u v _ hu hv => ?_) le_rfl h
    fun _ _ _ _ => trivial
  have hstep := stepWith_ticksWaited hv
  omega

/-- A PLAY's run stays a run of that PLAY up to its first UNMASK. -/
theorem runWith_performs {c : Config} {k : Nat} {s t : State} {code : Code} {dur : Duration}
    (hs : s.Performs c code dur) (hrun : runWith c k s = .next t)
    (hfirst : ∀ j u, j < k → runWith c j s = .next u → u.ctrlPc ≠ .unmask) : t.Performs c code dur :=
  runWith_keeps
    (fun _ _ hu hplay hv => stepWith_performs hplay hv fun hidle => hu (unmask_of_step_to_idle hv hplay.busy hidle))
    hs hrun hfirst

/-- At UNMASK all segments of the PLAY are over. -/
theorem State.Performs.ticksWaited_at_unmask {c : Config} {code : Code} {dur : Duration} {s : State}
    (h : s.Performs c code dur) (hp : s.ctrlPc = .unmask) :
    s.ticksWaited = segmentsOf c code * (ticksOf c dur / segmentsOf c code + 1) := by
  obtain ⟨hn, htarget, -⟩ := h.tone (by rw [hp]; exact nofun) (by rw [hp]; exact nofun)
  simp only [State.ticksWaited, hp, hn, htarget, segmentTicks, segmentsOf]

/-- Settles O56: the run from MASK has seen at least the ticks that its waits count, and at UNMASK they count every
segment's target and one more. -/
theorem durationLaw : Obligations.DurationLaw := by
  intro c k s t hs hrun ht hfirst
  have hplay := runWith_performs (State.performs_of_mask c hs) hrun hfirst
  have hwaited := runWith_ticksWaited hrun
  have hzero : s.ticksWaited = 0 := by simp only [State.ticksWaited, hs]
  rw [hplay.ticksWaited_at_unmask ht, hzero, Nat.add_zero] at hwaited
  have htotal : ticksOf c s.cmdDur < segmentsOf c s.cmdCode * (ticksOf c s.cmdDur / segmentsOf c s.cmdCode + 1) :=
    Nat.lt_mul_div_succ _ (segCountNat_pos _)
  exact ⟨hwaited, (Nat.add_le_add_left htotal _).trans hwaited⟩

end Sys2Proof.Machine
end

section
/-! PROOFS. The PWM Gate's rule of 43_pwm_gate.md: its two operations are idempotent, and a closed gate keeps the pin LOW
(R126). -/

namespace Sys2Proof.Machine

/-! ### The gate at the level it already has (R126) -/

theorem State.set_gateEn_self {s : State} {b : Bool} (h : s.gateEn = b) : { s with gateEn := b } = s := by
  subst h
  rfl

theorem gateEnable_of_open {s : State} (h : s.gateEn = true) : gateEnable s = s.emit (.gate true) := by
  rw [gateEnable, State.set_gateEn_self h]

theorem gateDisable_of_closed {s : State} (h : s.gateEn = false) :
    gateDisable s = ({ s with duty := 0#8 }).emit (.gate false) := by
  rw [gateDisable, ← State.set_gateEn_self (s := { s with duty := 0#8 }) h]

/-! ### GATE_DISABLE twice (R126) -/

/-- After a disable the gate is closed and `duty` is 0 already, so a second one only emits its event. -/
theorem gateDisable_gateDisable (s : State) : gateDisable (gateDisable s) = (gateDisable s).emit (.gate false) :=
  gateDisable_of_closed (gateDisable_gateEn s)

theorem gateDisable_emit_history (s : State) :
    ((gateDisable s).emit (.gate false)).history = s.history ++ [.gate false, .gate false] :=
  List.append_assoc _ _ _

theorem gateDisable_pin {s : State} (h : s.pinOut = true) : (gateDisable s).pin = .low :=
  State.pin_of_closed h (gateDisable_gateEn s)

/-- Settles O42: an operation at the level the gate already has writes at most `duty`, and a disable leaves the gate
closed, which alone decides the pin (R31). -/
theorem gateIsIdempotent : Obligations.GateIsIdempotent := by
  refine ⟨fun s => gateEnable_of_open, fun s => gateDisable_of_closed, fun s => ?_, fun s h => ?_⟩
  · rw [gateDisable_gateDisable, ← gateDisable_emit_history]
    rfl
  · exact ⟨gateDisable_pin h, gateDisable_pin (s := gateDisable s) h⟩

end Sys2Proof.Machine
end

section
/-! PROOFS. The rules of 44_host_commands.md: when each agent has a step (R130, R76, R122), what INIT and PLAY do and leave
alone (R131 to R133), the HOST's wait (R129), the history (R134), and the end of a run (R135), which every clean run
reaches (R162, R170). -/

namespace Sys2Proof.Machine

/-! ### When an agent has a step -/

theorem host_enabled_iff (s : State) :
    s.enabled .host = true ↔ s.fault = none ∧ s.hostWait = none ∧ s.hostProg ≠ [] := by
  simp [State.enabled, State.hostReady]

/-- Outside WAIT nothing holds CTRL, and at WAIT the hold decides. -/
theorem ctrl_enabled_iff (s : State) :
    s.enabled .ctrl = true ↔
      s.fault = none ∧ s.ctrlPc ≠ .idle ∧ (s.ctrlPc = .wait → s.segTicks.toNat < s.tickCnt.toNat) := by
  simp [State.enabled, State.ctrlReady, State.busy, State.held, BitVec.lt_def, imp_iff_not_or]

/-- Settles O21, agent by agent. -/
theorem whenAgentsAreEnabled : Obligations.WhenAgentsAreEnabled :=
  fun s => ⟨host_enabled_iff s, tick_enabled_iff s, ctrl_enabled_iff s⟩

/-! ### INIT and PLAY -/

/-- INIT as it is accepted at IDLE (R131). -/
theorem exec_init_idle {s : State} (hf : s.fault = none) (hp : s.ctrlPc = .idle) :
    exec .init s = .next { s with
      timerOn := true
      pinOut := true
      history := s.history ++ [.cmd 0x01000000#32, .done 0x01000000#32]
      hostWait := if s.hostWait = some 0x01000000#32 then none else s.hostWait } := by
  rw [exec, execInit, issue_idle hf hp, encode_init]
  simp [performInit, State.complete, State.emit]

/-- Any command while a PLAY is in progress: its CMD, then BUSY (R140). -/
theorem exec_busy (i : Instr) {s : State} (hf : s.fault = none) (hb : s.ctrlPc ≠ .idle) :
    exec i s = .next { s with
      fault := some ⟨3#8, encode i⟩
      history := s.history ++ [.cmd (encode i), .fault 3#8 (encode i)] } := by
  have hissue : ∀ p, issue (encode i) p s = .next ((s.emit (.cmd (encode i))).raise busyFault (encode i)) :=
    fun p => issue_busy hf hb
  have hhistory : ((s.emit (.cmd (encode i))).raise busyFault (encode i)).history =
      s.history ++ [.cmd (encode i), .fault 3#8 (encode i)] := List.append_assoc _ _ _
  rw [← hhistory]
  cases i with
  | init => exact hissue performInit
  | play code dur => exact hissue (performPlay code dur)

/-- INIT's row holds the one word whose low bits are 0 (R64, R131). -/
theorem decode_of_init_low_bits {w : Word} (hop : opField w = 0x01#8) (hlow : w.extractLsb' 0 24 ≠ 0#24) :
    decode w = .illegal w := by
  refine decode_of_no_opcode (fun hw => hlow ?_) (fun hplay => absurd (hop.symm.trans hplay) (by decide))
  rw [hw]
  decide

/-- Settles O10: at IDLE INIT is accepted, while a PLAY is in progress it is BUSY, and its one word has low bits of 0. -/
theorem initConfiguresTimerAndPin : Obligations.InitConfiguresTimerAndPin :=
  ⟨fun _ => exec_init_idle, fun _ hf hb => encode_init ▸ exec_busy .init hf hb, fun _ => decode_of_init_low_bits⟩

theorem State.set_powered_self {s : State} (ht : s.timerOn = true) (hp : s.pinOut = true) :
    { s with timerOn := true, pinOut := true } = s := by
  cases s
  cases ht
  cases hp
  rfl

/-- Settles O11: the two registers that INIT writes hold 1 already. -/
theorem secondInitChangesNothing : Obligations.SecondInitChangesNothing :=
  fun _ hf hidle ht hp => ⟨_, exec_init_idle hf hidle, State.set_powered_self ht hp⟩

/-- The body of a PLAY that starts the sequencer (R132). -/
theorem performPlay_start {code : Code} {dur : Duration} {s : State} (ht : s.timerOn = true) (hd : dur ≠ 0#16) :
    performPlay code dur s = ({ s with cmdCode := code, cmdDur := dur } : State).goto .mask := by
  simp [performPlay, ht, hd]

/-- Settles O12: at IDLE and after INIT the word is accepted, and a nonzero duration starts the sequencer. -/
theorem playStartsSequencer : Obligations.PlayStartsSequencer := by
  intro w code dur s hdec hf hp ht hd
  obtain rfl := encode_of_decode hdec
  rw [exec, execPlay, issue_idle hf hp, performPlay_start (s := s.emit _) ht hd]
  rfl

/-! ### What a command leaves alone (R130 to R132) -/

/-- Everything a command can do to the state in which its CMD is in the history. -/
theorem exec_cases {i : Instr} {s t : State} (h : exec i s = .next t) :
    s.fault = none ∧
      ((∃ code, t = (s.emit (.cmd (encode i))).raise code (encode i)) ∨
        (i = .init ∧ t = performInit (s.emit (.cmd (encode i)))) ∨
        ∃ code dur, i = .play code dur ∧
          (t = ({ s.emit (.cmd (encode i)) with cmdCode := code, cmdDur := dur } : State).complete (encode i) ∨
            t = ({ s.emit (.cmd (encode i)) with cmdCode := code, cmdDur := dur } : State).goto .mask)) := by
  cases i with
  | init =>
    obtain ⟨hf, ⟨-, ht⟩ | ⟨-, ht⟩⟩ := issue_cases h
    · exact ⟨hf, .inl ⟨_, ht⟩⟩
    · exact ⟨hf, .inr (.inl ⟨rfl, ht⟩)⟩
  | play code dur =>
    obtain ⟨hf, ⟨-, ht⟩ | ⟨-, ht⟩⟩ := issue_cases h
    · exact ⟨hf, .inl ⟨_, ht⟩⟩
    · obtain ⟨-, hp⟩ | ⟨-, -, hp⟩ | ⟨-, -, hp⟩ := performPlay_cases code dur (s.emit (.cmd (encode (.play code dur))))
      · exact ⟨hf, .inl ⟨_, ht.trans hp⟩⟩
      · exact ⟨hf, .inr (.inr ⟨code, dur, rfl, .inl (ht.trans hp)⟩)⟩
      · exact ⟨hf, .inr (.inr ⟨code, dur, rfl, .inr (ht.trans hp)⟩)⟩

/-- The registers that both commands leave alone, beside those of the datapath, and what belongs to the HOST's step and
not to its command. -/
def State.outsideCommands (s : State) :=
  ((s.gateEn, s.dialInhibit), (s.nSeg, s.segHi, s.segLo, s.segTicks, s.audible, s.segIdx),
    (s.hostProg, s.schedule, s.draws))

theorem exec_outsideCommands {i : Instr} {s t : State} (h : exec i s = .next t) :
    t.outsideCommands = s.outsideCommands := by
  obtain ⟨-, ⟨code, rfl⟩ | ⟨rfl, rfl⟩ | ⟨code, dur, rfl, rfl | rfl⟩⟩ := exec_cases h <;> rfl

/-- Where a fault is recorded, the record and the history are all that changed (R142). -/
theorem exec_fault_frame {i : Instr} {s t : State} (h : exec i s = .next t) (ht : t.fault ≠ none) :
    { t with fault := s.fault, history := s.history } = s := by
  obtain ⟨hf, ⟨code, rfl⟩ | ⟨rfl, rfl⟩ | ⟨code, dur, rfl, rfl | rfl⟩⟩ := exec_cases h
  · rfl
  · exact absurd hf ht
  · exact absurd hf ht
  · exact absurd hf ht

theorem exec_init_frame {s t : State} (h : exec .init s = .next t) :
    t.cmdCode = s.cmdCode ∧ t.cmdDur = s.cmdDur ∧ t.ctrlPc = s.ctrlPc := by
  obtain ⟨-, ⟨code, rfl⟩ | ⟨-, rfl⟩ | ⟨code, dur, hplay, -⟩⟩ := exec_cases h
  · exact ⟨rfl, rfl, rfl⟩
  · exact ⟨rfl, rfl, rfl⟩
  · cases hplay

theorem exec_play_frame {i : Instr} {s t : State} (h : exec i s = .next t) (hi : i ≠ .init) :
    t.timerOn = s.timerOn ∧ t.pinOut = s.pinOut := by
  obtain ⟨-, ⟨code, rfl⟩ | ⟨rfl, -⟩ | ⟨code, dur, rfl, rfl | rfl⟩⟩ := exec_cases h
  · exact ⟨rfl, rfl⟩
  · exact absurd rfl hi
  · exact ⟨rfl, rfl⟩
  · exact ⟨rfl, rfl⟩

/-- Settles O17, from the frame of both commands and of each. -/
theorem commandFrame : Obligations.CommandFrame := by
  intro i s t h
  have hdatapath := exec_datapath h
  have hothers := exec_outsideCommands h
  simp only [State.datapath, State.outsideCommands, Prod.mk.injEq] at hdatapath hothers
  obtain ⟨hgate, hsegments, hmodel⟩ := hothers
  refine ⟨hdatapath, hgate, hsegments, hmodel, ?_, exec_play_frame h, exec_fault_frame h⟩
  rintro rfl
  exact exec_init_frame h

/-! ### The HOST's step and its wait (R129) -/

/-- A HOST step runs the command that its word decodes to, once the word is taken. -/
theorem hostStep_of_decode {s : State} {w : Word} {rest : List Word} {i : Instr} (hw : s.hostProg = w :: rest)
    (hd : decode w = .ok i) : hostStep s = exec i { s with hostProg := rest, hostWait := some w } := by
  simp only [hostStep, State.takeWord, hw, hd]

theorem host_enabled_of_word {s : State} {w : Word} {rest : List Word} (hf : s.fault = none)
    (hwait : s.hostWait = none) (hw : s.hostProg = w :: rest) : s.enabled .host = true :=
  (host_enabled_iff s).mpr ⟨hf, hwait, hw ▸ List.cons_ne_nil w rest⟩

/-- With the schedule used up, an agent that is alone enabled takes its step. -/
theorem stepWith_alone (c : Config) {s : State} {a : Agent} (hf : s.fault = none) (hs : s.schedule = [])
    (ha : enabledAgents s = [a]) : stepWith c s = agentStep c a s := by
  have hc : chooseAgent s = some (a, { s with schedule := [] }) := by simp only [chooseAgent, hs, firstEnabled, ha]
  rw [← hs] at hc
  exact stepWith_of_chooseAgent c hf hc

/-- Before INIT and at IDLE nobody but HOST can have a step (R158). -/
theorem enabledAgents_host_alone {s : State} (ha : s.enabled .host = true) (hp : s.ctrlPc = .idle)
    (ht : s.timerOn = false) : enabledAgents s = [.host] := by
  have hctrl : ¬ s.enabled .ctrl = true := fun hc => busy_of_ctrl_enabled hc hp
  have htick : ¬ s.enabled .tick = true := fun hc => Bool.false_ne_true (ht.symm.trans ((tick_enabled_iff s).mp hc).1)
  simp [enabledAgents, ha, hctrl, htick]

theorem withFetchWord_of_tableWord {s : State} {n w : Nat} {v : Word} (h : tableWord n w = some v) :
    s.withFetchWord n w = s.placeWord v := by
  simp only [State.withFetchWord, h]

/-- Settles O18: the schedule names HOST, HOST alone is enabled, or `withFetchWord` puts HOST first. -/
theorem stepRunsDecodedCommand : Obligations.StepRunsDecodedCommand := by
  refine ⟨fun s w rest i sch hf hwait hw hs hd => ?_, fun s w rest i hf hwait hw hs hp ht hd => ?_,
    fun s n w v i hv hd => ?_⟩
  · rw [step, stepWith_head hf hs (host_enabled_of_word hf hwait hw)]
    exact hostStep_of_decode hw hd
  · have ha := host_enabled_of_word hf hwait hw
    rw [step, stepWith_alone _ hf hs (enabledAgents_host_alone ha hp ht)]
    exact hostStep_of_decode hw hd
  · have ha : (s.placeWord v).enabled .host = true := host_enabled_of_word rfl rfl rfl
    rw [withFetchWord_of_tableWord hv, step, stepWith_head rfl rfl ha]
    exact hostStep_of_decode (s := { s.placeWord v with schedule := s.schedule }) rfl hd

/-- No CTRL step touches the host program or the fault record. -/
theorem ctrlStep_hostProg_fault (c : Config) (s : State) :
    (ctrlStep c s).hostProg = s.hostProg ∧ (ctrlStep c s).fault = s.fault := by
  cases hp : s.ctrlPc with
  | gateOn => obtain ⟨-, h⟩ | ⟨-, h⟩ := gateOn_cases s <;> simp [ctrlStep, hp, h]
  | wait => obtain ⟨-, h⟩ | ⟨-, h⟩ := wait_cases s <;> simp [ctrlStep, hp, h]
  | _ => simp [ctrlStep, hp, mask, resolve, setHi, setLo, waitStart, nextHi, gateOff, zeroHi, zeroLo, unmask]

/-- The DONE of UNMASK frees a HOST that waits for it; nothing else of CTRL's does. -/
theorem ctrlStep_hostWait (c : Config) {s : State} {w : Word} (h : s.hostWait = some w) :
    (ctrlStep c s).hostWait = some w ∨
      ((ctrlStep c s).hostWait = none ∧ (ctrlStep c s).history.getLast? = some (.done w)) := by
  by_cases hu : s.ctrlPc = .unmask
  · rw [ctrlStep_of_unmask c hu]
    by_cases hw : w = s.latchedWord
    · subst hw
      exact .inr ⟨if_pos h, by simp [unmask]⟩
    · exact .inl ((if_neg fun hs => hw (Option.some.inj (h.symm.trans hs))).trans h)
  · obtain ⟨-, hwait, -⟩ := ctrlStep_command c hu
    exact .inl (hwait.trans h)

/-- Settles O51: HOST has no step, TICK does not touch its position, and CTRL frees it with the DONE that it waits for. -/
theorem hostWaitsForDone : Obligations.HostWaitsForDone := by
  intro c s t w hw h
  obtain ⟨-, a, sch, n, ha, hstep⟩ := stepWith_cases h
  cases a with
  | host =>
    obtain ⟨-, hnone, -⟩ := (host_enabled_iff s).mp ha
    exact nomatch hw.symm.trans hnone
  | ctrl =>
    cases hstep
    obtain ⟨hprog, -⟩ := ctrlStep_hostProg_fault c { s with schedule := sch, draws := n }
    exact ⟨hprog, ctrlStep_hostWait c (s := { s with schedule := sch, draws := n }) hw⟩
  | tick =>
    cases hstep
    exact ⟨rfl, .inl hw⟩

/-! ### The history (R134) -/

theorem exec_history {i : Instr} {s t : State} (h : exec i s = .next t) :
    ∃ es, t.history = s.history ++ .cmd (encode i) :: es := by
  obtain ⟨-, ⟨code, rfl⟩ | ⟨rfl, rfl⟩ | ⟨code, dur, rfl, rfl | rfl⟩⟩ := exec_cases h
  · exact ⟨[.fault code _], List.append_assoc _ _ _⟩
  · exact ⟨[.done _], List.append_assoc _ _ _⟩
  · exact ⟨[.done _], List.append_assoc _ _ _⟩
  · exact ⟨[], rfl⟩

/-- Settles O53: every step appends the events that `stepWith_opensGate` speaks of. -/
theorem historyIsAppendOnly : Obligations.HistoryIsAppendOnly := by
  refine ⟨fun c s t h => ?_, tick_history, fun i s t => exec_history⟩
  obtain ⟨es, hes, -⟩ := stepWith_opensGate h
  exact ⟨es, hes.symm⟩

/-! ### After a successful end (R135) -/

theorem State.ended_iff (s : State) :
    s.ended = true ↔ s.hostProg = [] ∧ s.hostWait = none ∧ s.fault = none := by
  simp [State.ended, and_assoc]

/-- A HOST that waits for nothing has no PLAY in progress. -/
theorem State.Inv.idle_of_free {s : State} (h : s.Inv) (hf : s.fault = none) (hw : s.hostWait = none) :
    s.ctrlPc = .idle := by
  by_contra hb
  exact nomatch hw.symm.trans (h.inPlay hf hb).waiting

/-- With both step widths 0 a TICK advances no phase (R78, R81). -/
theorem State.AtRest.nextAcc {s : State} (h : s.AtRest) : s.nextAccHi = s.accHi ∧ s.nextAccLo = s.accLo := by
  simp [State.nextAccHi, State.nextAccLo, advance, h.stepHi, h.stepLo]

/-- A TICK of the block at rest. -/
theorem tick_of_atRest {s : State} (c : Config) (h : s.AtRest) :
    tick c s = { s with
      duty := s.tickDuty c
      tickCnt := s.tickCnt + 1#32
      history := s.history ++ [.sample (s.tickDuty c) false] } := by
  obtain ⟨hhi, hlo⟩ := h.nextAcc
  simp only [tick, State.emit, hhi, hlo, h.gate]

/-- Settles O54: HOST has no word left and CTRL is at IDLE, so the step is a TICK of the block at rest. -/
theorem endStateIsStable : Obligations.EndStateIsStable := by
  intro c s t hinv hend h
  obtain ⟨hprog, hfree, hf⟩ := s.ended_iff.mp hend
  have hidle := hinv.idle_of_free hf hfree
  obtain ⟨-, a, sch, n, ha, hstep⟩ := stepWith_cases h
  cases a with
  | host => exact absurd hprog (hostProg_ne_nil_of_enabled ha)
  | ctrl => exact absurd hidle (busy_of_ctrl_enabled ha)
  | tick =>
    cases hstep
    exact ⟨hend, sch, n, tick_of_atRest c ((hinv.reschedule sch n).atRest hidle)⟩

/-! ### How much work a run has left -/

theorem State.Accepts.hostProg {s t : State} {w : Word} (h : s.Accepts w t) : t.hostProg = s.hostProg := by
  cases h <;> rfl

/-- A bound on the HOST's and CTRL's steps that are left: for each word its own step and the 17 CTRL steps that a PLAY has
at most, and the rest of the PLAY in progress. -/
def State.work (s : State) : Nat := 18 * s.hostProg.length + s.ctrlStepsLeft

/-- At IDLE a HOST step takes one word off the program, and starts at most one PLAY. -/
theorem hostStep_work_lt {s t : State} (hidle : s.ctrlPc = .idle) (h : hostStep s = .next t) : t.work < s.work := by
  have hleft : t.ctrlStepsLeft ≤ 17 := by
    obtain hpc | ⟨-, hpc⟩ := hostStep_ctrlPc h
    · simp [State.ctrlStepsLeft, hpc, hidle]
    · simp [State.ctrlStepsLeft, hpc]
  have hprog : s.hostProg.length = t.hostProg.length + 1 := by
    obtain ⟨w, rest, hw, ⟨hb, -⟩ | ⟨-, haccept⟩⟩ := hostStep_issues h
    · exact absurd hidle hb
    · have ht : t.hostProg = rest := haccept.hostProg
      rw [hw, ht, List.length_cons]
  unfold State.work
  omega

theorem ctrlStep_work_lt (c : Config) {s : State} (hb : s.ctrlPc ≠ .idle) : (ctrlStep c s).work < s.work := by
  obtain ⟨hprog, -⟩ := ctrlStep_hostProg_fault c s
  rw [State.work, hprog]
  exact Nat.add_lt_add_left (ctrlStepsLeft_ctrlStep_lt c hb) _

/-- Every step but a TICK brings the end of the run nearer. -/
theorem agentStep_work_lt {c : Config} {a : Agent} {s t : State} (hinv : s.Inv) (ha : s.enabled a = true)
    (hne : a ≠ .tick) (h : agentStep c a s = .next t) : t.work < s.work := by
  cases a with
  | host => exact hostStep_work_lt (hinv.idle_of_host_enabled ha) h
  | ctrl => cases h; exact ctrlStep_work_lt c (busy_of_ctrl_enabled ha)
  | tick => exact absurd rfl hne

theorem agentStep_inv {c : Config} {a : Agent} {s t : State} (hinv : s.Inv) (ha : s.enabled a = true)
    (h : agentStep c a s = .next t) : t.Inv := by
  cases a with
  | host => exact hostStep_inv hinv ha h
  | ctrl => cases h; exact ctrlStep_inv c hinv ha
  | tick => cases h; exact tick_inv c hinv

/-! ### Runs that do not fault -/

/-- What keeps a run from a fault: no fault yet, no ILLEGAL word left, and no PLAY before INIT. -/
structure State.Faultless (s : State) : Prop where
  clear : s.fault = none
  legal : ∀ w ∈ s.hostProg, decode w ≠ .illegal w
  powered : s.timerOn = true ∨ s.hostProg.head? = some (encode .init)

/-- INIT's word is no PLAY's. -/
theorem encode_play_ne_init (code : Code) (dur : Duration) : encode (.play code dur) ≠ encode .init := fun h => by
  have hd := congrArg decode h
  simp at hd

/-- The word is legal, and it is INIT unless the timer is on. -/
theorem State.Accepts.faultless {s t : State} {w : Word} (h : s.Accepts w t) (hf : s.fault = none)
    (hw : decode w ≠ .illegal w) (hlegal : ∀ v ∈ s.hostProg, decode v ≠ .illegal v)
    (hpower : s.timerOn = true ∨ w = encode .init) : t.Faultless := by
  cases h with
  | illegal w hd => exact absurd hd hw
  | init => exact ⟨hf, hlegal, .inl rfl⟩
  | early code dur ht =>
    obtain hon | hinit := hpower
    · exact absurd (ht.symm.trans hon) Bool.false_ne_true
    · exact absurd hinit (encode_play_ne_init code dur)
  | noOp code ht => exact ⟨hf, hlegal, .inl ht⟩
  | start code dur ht => exact ⟨hf, hlegal, .inl ht⟩

theorem agentStep_faultless {c : Config} {a : Agent} {s t : State} (hinv : s.Inv) (ha : s.enabled a = true)
    (h : s.Faultless) (hstep : agentStep c a s = .next t) : t.Faultless := by
  obtain ⟨hf, hlegal, hpower⟩ := h
  cases a with
  | host =>
    obtain ⟨w, rest, hw, ⟨hb, -⟩ | ⟨-, haccept⟩⟩ := hostStep_issues hstep
    · exact absurd (hinv.idle_of_host_enabled ha) hb
    · rw [hw] at hlegal hpower
      obtain ⟨hword, hrest⟩ := List.forall_mem_cons.mp hlegal
      exact haccept.faultless hf hword hrest (hpower.imp_right Option.some.inj)
  | ctrl =>
    cases hstep
    obtain ⟨hprog, hfault⟩ := ctrlStep_hostProg_fault c s
    obtain ⟨-, -, -, -, htimer, -⟩ := ctrlStep_shared c s
    exact ⟨hfault.trans hf, by rwa [hprog], by rwa [hprog, htimer]⟩
  | tick =>
    cases hstep
    exact ⟨hf, hlegal, hpower⟩

/-! ### Executions reach an end (R135, R170) -/

namespace Execution

variable {c : Config} (e : Execution c)

/-- What holds at first and is kept by every agent's step holds throughout. -/
theorem always {P : State → Prop}
    (hstep : ∀ a s t, P s → s.enabled a = true → agentStep c a s = .next t → P t) (h : P (e.state 0)) (n : Nat) :
    P (e.state n) := by
  induction n with
  | zero => exact h
  | succ n ih =>
    cases hm : e.mover n with
    | none => rwa [(e.rests n hm).2]
    | some a =>
      obtain ⟨ha, hmove⟩ := e.moves n a hm
      exact hstep a _ _ ih ha hmove

theorem work_succ_le (hinv : ∀ n, (e.state n).Inv) (n : Nat) : (e.state (n + 1)).work ≤ (e.state n).work := by
  cases hm : e.mover n with
  | none => rw [(e.rests n hm).2]
  | some a =>
    by_cases ht : a = .tick
    · rw [e.state_succ_of_tick (ht ▸ hm)]
      exact le_rfl
    · obtain ⟨ha, hmove⟩ := e.moves n a hm
      exact (agentStep_work_lt (hinv n) ha ht hmove).le

/-- From a state with the least work on, nobody but TICK moves. -/
theorem mover_of_least_work (hinv : ∀ n, (e.state n).Inv) {n m : Nat}
    (hleast : ∀ k, (e.state n).work ≤ (e.state k).work) (hm : n ≤ m) {a : Agent} (ha : e.mover m = some a) :
    a = .tick := by
  by_contra ht
  obtain ⟨hen, hmove⟩ := e.moves m a ha
  have hlt := agentStep_work_lt (hinv m) hen ht hmove
  have hle := antitone_nat_of_succ_le (f := fun k => (e.state k).work) (e.work_succ_le hinv) hm
  exact (hlt.trans_le hle).not_ge (hleast (m + 1))

/-- Where nobody but TICK moves, whatever a TICK keeps stays. -/
theorem eq_of_only_ticks {α : Type} (g : State → α) (hg : ∀ s, g (tick c s) = g s) {n : Nat}
    (hquiet : ∀ m a, n ≤ m → e.mover m = some a → a = .tick) {m : Nat} (hm : n ≤ m) :
    g (e.state m) = g (e.state n) := by
  induction m, hm using Nat.le_induction with
  | base => rfl
  | succ m hm ih =>
    rw [← ih]
    cases hmover : e.mover m with
    | none => rw [(e.rests m hmover).2]
    | some a =>
      obtain rfl := hquiet m a hm hmover
      rw [e.state_succ_of_tick hmover, hg]

/-- From a state with no end onwards HOST or CTRL moves again: at IDLE HOST has a word to issue, a WAIT ends, and at every
other state of the sequencer CTRL stays enabled. -/
theorem exists_mover_ne_tick (hfair : e.WeakFair) (hwait : e.EpochsDoNotWrap ∨ e.CtrlNotStarved) {n : Nat}
    (hinv : (e.state n).Inv) (hf : (e.state n).fault = none) (hend : (e.state n).ended ≠ true) :
    ∃ m a, n ≤ m ∧ e.mover m = some a ∧ a ≠ .tick := by
  by_contra! hquiet
  by_cases hidle : (e.state n).ctrlPc = .idle
  · have hfree : (e.state n).hostWait = none := (hinv.waiting hf).trans (if_pos hidle)
    have hword : (e.state n).hostProg ≠ [] := fun hnil => hend ((State.ended_iff _).mpr ⟨hnil, hfree, hf⟩)
    obtain ⟨m, hm, hhost⟩ := hfair.host n fun m hm =>
      (e.eq_of_only_ticks (·.enabled .host) (fun _ => rfl) hquiet hm).trans
        ((host_enabled_iff _).mpr ⟨hf, hfree, hword⟩)
    exact nomatch hquiet m _ hm hhost
  · have hpc : ∀ m, n ≤ m → (e.state m).ctrlPc = (e.state n).ctrlPc := fun m hm =>
      e.eq_of_only_ticks State.ctrlPc (tick_ctrlPc c) hquiet hm
    by_cases hw : (e.state n).ctrlPc = .wait
    · have hplay := hinv.inPlay hf hidle
      obtain ⟨m, hm, hne⟩ := hwait.elim (fun h => e.wait_ends_of_epochsDoNotWrap h hplay)
        (fun h => e.wait_ends_of_ctrlNotStarved h hplay)
      exact hne ((hpc m hm).trans hw)
    · obtain ⟨m, hm, hctrl⟩ := hfair.ctrl n fun m hm => (ctrl_enabled_iff _).mpr
        ⟨(e.eq_of_only_ticks State.fault (tick_fault c) hquiet hm).trans hf, hpc m hm ▸ hidle,
          fun hp => absurd ((hpc m hm).symm.trans hp) hw⟩
      exact nomatch hquiet m _ hm hctrl

/-- A state with the least work is an end. -/
theorem exists_end (hinv : ∀ n, (e.state n).Inv) (hfair : e.WeakFair)
    (hwait : e.EpochsDoNotWrap ∨ e.CtrlNotStarved) :
    ∃ n, (e.state n).ended = true ∨ (e.state n).faultedEnd = true := by
  obtain ⟨n, hleast⟩ : ∃ n, ∀ k, (e.state n).work ≤ (e.state k).work :=
    ⟨_, fun k => Function.argmin_le (fun k => (e.state k).work) k⟩
  refine ⟨n, ?_⟩
  by_contra! hnone
  obtain ⟨hend, hfaulted⟩ := hnone
  have hf : (e.state n).fault = none := by simpa [State.faultedEnd] using hfaulted
  obtain ⟨m, a, hm, hmover, hne⟩ := e.exists_mover_ne_tick hfair hwait (hinv n) hf hend
  exact hne (e.mover_of_least_work hinv hleast hm hmover)

end Execution

/-- Right after reset a program of legal words that begins with INIT meets no fault. -/
theorem entry_faultless {prog : List Word} (sch : List Agent) (hinit : prog.head? = some 0x01000000#32)
    (hlegal : ∀ w ∈ prog, decode w ≠ .illegal w) : (State.entry prog sch).Faultless :=
  ⟨rfl, hlegal, .inr (hinit.trans (congrArg some encode_init.symm))⟩

/-- Settles O60: the invariant holds throughout, so the work left falls to an end; and from a faultless entry no state is
faulted, so that end is a successful one. -/
theorem cleanRunsEnd : Obligations.CleanRunsEnd := by
  intro c e prog hclean
  obtain ⟨⟨sch, hentry⟩, hfair, hwait⟩ : (∃ sch, e.state 0 = State.entry prog sch) ∧ e.WeakFair ∧
      (e.EpochsDoNotWrap ∨ e.CtrlNotStarved) := by
    obtain ⟨hentry, hfair⟩ | ⟨hentry, hfair, hstrong⟩ := hclean
    · exact ⟨hentry, hfair.toWeakFair, .inl hfair.epoch⟩
    · exact ⟨hentry, hfair, .inr hstrong⟩
  have hinv0 : (e.state 0).Inv := hentry ▸ resetMeetsInvariant prog sch
  obtain ⟨n, hn⟩ := e.exists_end (e.always (fun _ _ _ => agentStep_inv) hinv0) hfair hwait
  refine ⟨⟨n, hn⟩, fun hinit hlegal => ?_⟩
  obtain ⟨-, hf, -, -⟩ := e.always (P := fun s => s.Inv ∧ s.Faultless)
    (fun _ _ _ ⟨hs, hsafe⟩ ha hstep => ⟨agentStep_inv hs ha hstep, agentStep_faultless hs ha hsafe hstep⟩)
    ⟨hinv0, hentry ▸ entry_faultless sch hinit hlegal⟩ n
  exact ⟨n, hn.resolve_right (by simp [State.faultedEnd, hf])⟩

end Sys2Proof.Machine
end

section
/-! PROOFS. The rules of 60_exceptions.md: which word raises which fault (R137 to R140), that a fault changes nothing but
its record (R142, R147) and is raised by no other step (R143), and that nothing moves after it (R142). -/

namespace Sys2Proof.Machine

/-! ### A fault that ISSUE raises -/

/-- The state after a word that faults: its CMD, then the fault with the word as its info (R130, R142). -/
theorem emit_cmd_raise (s : State) (w : Word) (code : BitVec 8) :
    (s.emit (.cmd w)).raise code w =
      { s with fault := some ⟨code, w⟩, history := s.history ++ [.cmd w, .fault code w] } := by
  simp [State.emit, State.raise]

/-- The body of a PLAY before INIT, whatever its duration (R139). -/
theorem performPlay_early (code : Code) (dur : Duration) {s : State} (ht : s.timerOn = false) :
    performPlay code dur s = s.raise notInitialized (encode (.play code dur)) :=
  if_pos ht

/-- Settles O14: at IDLE the word is accepted, and the timer is checked before the duration. -/
theorem playBeforeInitFaults : Obligations.PlayBeforeInitFaults := by
  intro w code dur s hd hf hp ht
  obtain rfl := encode_of_decode hd
  rw [exec, execPlay, issue_idle hf hp, performPlay_early code dur (s := s.emit _) ht, emit_cmd_raise]
  rfl

/-- A HOST step while a PLAY is in progress raises BUSY before it looks at what the word is (R130, R140). -/
theorem hostStep_busy {s : State} {w : Word} {rest : List Word} (hf : s.fault = none) (hb : s.ctrlPc ≠ .idle)
    (hw : s.hostProg = w :: rest) : hostStep s = .next ((s.issued w rest).raise busyFault w) := by
  obtain ⟨t, ht⟩ := hostStep_exists_next hf (hw ▸ List.cons_ne_nil w rest)
  obtain ⟨v, rest', hv, ⟨-, rfl⟩ | ⟨hidle, -⟩⟩ := hostStep_issues ht
  · obtain ⟨rfl, rfl⟩ := List.cons.inj (hw.symm.trans hv)
    exact ht
  · exact absurd hidle hb

/-- Settles O15, for a command and for any word of the host program. -/
theorem wordWhileBusyFaults : Obligations.WordWhileBusyFaults := by
  refine ⟨fun i _ => exec_busy i, fun w rest s hf hb hw => ?_⟩
  rw [hostStep_busy hf hb hw, State.issued, emit_cmd_raise]
  rfl

/-! ### After a fault (R142) -/

theorem not_enabled_of_fault {s : State} {f : FaultRecord} (h : s.fault = some f) (a : Agent) :
    s.enabled a = false :=
  eq_false_of_ne_true fun ha => nomatch h.symm.trans (fault_none_of_enabled ha)

theorem exec_halted {s : State} {f : FaultRecord} (h : s.fault = some f) (i : Instr) :
    exec i s = .fault (.halted f.code f.info) := by
  cases i with
  | init => exact issue_halted h
  | play code dur => exact issue_halted h

/-- Settles O22, for the agents, the step and the commands in turn. -/
theorem faultStopsEveryAgent : Obligations.FaultStopsEveryAgent :=
  fun _ _ _ hf => ⟨not_enabled_of_fault hf, stepWith_halted hf, exec_halted hf⟩

/-! ### Which step records a fault -/

/-- Which check of ISSUE the word `w` fails first in `s`, by its fault code (R137 to R140). -/
def State.FailsCheck (s : State) (w : Word) (reason : BitVec 8) : Prop :=
  (reason = 3#8 ∧ s.ctrlPc ≠ .idle) ∨
    (reason = 1#8 ∧ s.ctrlPc = .idle ∧ decode w = .illegal w) ∨
    (reason = 2#8 ∧ s.ctrlPc = .idle ∧ s.timerOn = false ∧ ∃ code dur, decode w = .ok (.play code dur))

/-- Of what ISSUE can make of a word at IDLE, two cases record a fault. -/
theorem State.Accepts.fault_cases {s t : State} {w : Word} {f : FaultRecord} (h : s.Accepts w t)
    (hf : s.fault = none) (hp : s.ctrlPc = .idle) (ht : t.fault = some f) :
    ∃ code, t = s.raise code w ∧ s.FailsCheck w code := by
  cases h with
  | illegal w hd => exact ⟨_, rfl, .inr (.inl ⟨rfl, hp, hd⟩)⟩
  | early code dur hoff => exact ⟨_, rfl, .inr (.inr ⟨rfl, hp, hoff, code, dur, decode_encode _⟩)⟩
  | init | noOp | start => exact nomatch hf.symm.trans ht

/-- A HOST step that records a fault only issues its word and raises the fault of the check that the word fails. -/
theorem hostStep_fault_cases {s t : State} {f : FaultRecord} (h : hostStep s = .next t) (hf : s.fault = none)
    (ht : t.fault = some f) :
    ∃ w rest code, s.hostProg = w :: rest ∧ t = (s.issued w rest).raise code w ∧ s.FailsCheck w code := by
  obtain ⟨w, rest, hw, ⟨hb, hraise⟩ | ⟨hp, haccept⟩⟩ := hostStep_issues h
  · exact ⟨w, rest, _, hw, hraise, .inl ⟨rfl, hb⟩⟩
  · obtain ⟨code, hraise, hcheck⟩ := haccept.fault_cases hf hp ht
    exact ⟨w, rest, code, hw, hraise, hcheck⟩

/-- Settles O23: CTRL and TICK leave the record as it is, and a HOST step that sets it does no more than raise it. -/
theorem faultsArePrecise : Obligations.FaultsArePrecise := by
  intro c s t f h ht
  obtain ⟨hf, a, sch, n, ha, hstep⟩ := stepWith_cases h
  cases a with
  | host =>
    obtain ⟨-, hfree, -⟩ := (host_enabled_iff s).mp ha
    obtain ⟨w, rest, code, hw, rfl, hcheck⟩ := hostStep_fault_cases hstep hf ht
    obtain rfl : ⟨code, w⟩ = f := Option.some.inj ht
    refine ⟨w, rest, sch, n, hw, hfree, ?_, rfl, hcheck⟩
    rw [State.issued, emit_cmd_raise]
  | ctrl =>
    cases hstep
    obtain ⟨-, hkeep⟩ := ctrlStep_hostProg_fault c { s with schedule := sch, draws := n }
    exact nomatch hf.symm.trans (hkeep.symm.trans ht)
  | tick =>
    cases hstep
    exact nomatch hf.symm.trans ht

/-- Settles O50: BUSY needs a word issued during a PLAY, and then the HOST waits for that PLAY and issues none. -/
theorem blockingHostNeverBusy : Obligations.BlockingHostNeverBusy := by
  intro c s t f hinv h ht hcode
  obtain ⟨hf, -⟩ := stepWith_cases h
  obtain ⟨w, rest, sch, n, -, hfree, -, -, hcheck⟩ := faultsArePrecise c s t f h ht
  have hidle := hinv.idle_of_free hf hfree
  obtain ⟨-, hb⟩ | ⟨hone, -⟩ | ⟨htwo, -⟩ := hcheck
  · exact hb hidle
  · exact absurd (hcode.symm.trans hone) (by decide)
  · exact absurd (hcode.symm.trans htwo) (by decide)

end Sys2Proof.Machine
end
